-- ==== Sys2Proof/Word.lean ====
section
/-! DEFINITION. The word types of the ports and formats: bit vectors with bit 0 least significant
(00_scope.md R8; 10_state.md R28, R29, R34; 30_encoding.md R70). -/

namespace Sys2Proof

/-- BitPattern32: sign, 8 exponent bits, 23 mantissa bits (10_state.md R28). -/
abbrev F32 := BitVec 32

/-- BitPattern16: sign, 8 exponent bits, 7 mantissa bits (10_state.md R29). -/
abbrev BF16 := BitVec 16

/-- The operand port `a` (10_state.md R34). -/
abbrev OperandWord := BitVec 64

/-- The operation-select port `op` (10_state.md R34). -/
abbrev OpCode := BitVec 4

/-- One transaction word `T[67:0] = {op[3:0], a[63:0]}` (30_encoding.md R70). -/
abbrev TransactionWord := BitVec 68

/-- One byte of host storage (20_memory.md R50; outside the block). -/
abbrev Byte := BitVec 8

end Sys2Proof
end

