-- ==== Sys2Proof/Machine/Formats.lean ====
section
/-! DEFINITION. The two number formats: their fields, the real value of a pattern, and the named
constants (00_scope.md R10, R11; 10_state.md R28, R29). -/

namespace Sys2Proof.Machine

/-- `p[31]` (10_state.md R28). -/
def sign32 (p : F32) : BitVec 1 := p.extractLsb' 31 1

/-- `p[30:23]`, bias 127 (10_state.md R28). -/
def exponent32 (p : F32) : BitVec 8 := p.extractLsb' 23 8

/-- `p[22:0]` (10_state.md R28). -/
def mantissa32 (p : F32) : BitVec 23 := p.extractLsb' 0 23

/-- `q[15]` (10_state.md R29). -/
def sign16 (q : BF16) : BitVec 1 := q.extractLsb' 15 1

/-- `q[14:7]`, bias 127 (10_state.md R29). -/
def exponent16 (q : BF16) : BitVec 8 := q.extractLsb' 7 8

/-- `q[6:0]` (10_state.md R29). -/
def mantissa16 (q : BF16) : BitVec 7 := q.extractLsb' 0 7

/-- `p[31:16]`, the naive truncation of an f32 pattern (00_scope.md R12; 40_narrowing.md R100). -/
def high16 (p : F32) : BitVec 16 := p.extractLsb' 16 16

/-- `p[15:0]`, the bits narrowing discards (40_narrowing.md R100). -/
def low16 (p : F32) : BitVec 16 := p.extractLsb' 0 16

/-- A NaN (00_scope.md R10(e)). -/
def isNaN32 (p : F32) : Bool := exponent32 p == 0xFF#8 && mantissa32 p != 0#23

/-- A signaling NaN: a NaN with `f[22] = 0` (00_scope.md R10(e)). -/
def isSignaling32 (p : F32) : Bool := isNaN32 p && !(mantissa32 p).getLsbD 22

/-- An infinity (00_scope.md R10(d)). -/
def isInfinite32 (p : F32) : Bool := exponent32 p == 0xFF#8 && mantissa32 p == 0#23

/-- A normal number (00_scope.md R10(a)). -/
def isNormal32 (p : F32) : Bool := exponent32 p != 0x00#8 && exponent32 p != 0xFF#8

/-- A signed zero (00_scope.md R10(b)). -/
def isZero32 (p : F32) : Bool := exponent32 p == 0x00#8 && mantissa32 p == 0#23

/-- A NaN (00_scope.md R10(e), bf16). -/
def isNaN16 (q : BF16) : Bool := exponent16 q == 0xFF#8 && mantissa16 q != 0#7

/-- A signaling NaN: a NaN with `f[6] = 0` (00_scope.md R10(e), bf16). -/
def isSignaling16 (q : BF16) : Bool := isNaN16 q && !(mantissa16 q).getLsbD 6

/-- A quiet NaN: a NaN with `f[6] = 1` (00_scope.md R10(e), bf16). -/
def isQuiet16 (q : BF16) : Bool := isNaN16 q && (mantissa16 q).getLsbD 6

/-- An infinity (00_scope.md R10(d), bf16). -/
def isInfinite16 (q : BF16) : Bool := exponent16 q == 0xFF#8 && mantissa16 q == 0#7

/-- A normal number (00_scope.md R10(a), bf16). -/
def isNormal16 (q : BF16) : Bool := exponent16 q != 0x00#8 && exponent16 q != 0xFF#8

/-- A subnormal pattern: exponent 0, mantissa nonzero (10_state.md R29). -/
def isSubnormal16 (q : BF16) : Bool := exponent16 q == 0x00#8 && mantissa16 q != 0#7

/-- A signed zero (00_scope.md R10(b), bf16). -/
def isZero16 (q : BF16) : Bool := exponent16 q == 0x00#8 && mantissa16 q == 0#7

/-- The value of a pattern (00_scope.md R10): a finite value by sign and magnitude, so that the two
signed zeros differ, an infinity, or a NaN. -/
inductive FpValue where
  | finite (negative : Bool) (magnitude : ℚ)
  | infinite (negative : Bool)
  | nan (quiet : Bool)
  deriving DecidableEq, Repr

/-- `(-1)^s * magnitude`, for a finite value (00_scope.md R10). -/
def FpValue.real? : FpValue → Option ℚ
  | .finite negative magnitude => some (if negative then -magnitude else magnitude)
  | .infinite _ => none
  | .nan _ => none

/-- The value of fields `s`, `e`, `f` with a mantissa field of `k` bits: R10's cases (a) to (e), the
quiet bit being the mantissa field's most significant (00_scope.md R10). -/
def fieldsValue (k : Nat) (s : Bool) (e f : Nat) : FpValue :=
  if e = 255 then
    if f = 0 then .infinite s else .nan (decide (2 ^ (k - 1) ≤ f))
  else if e = 0 then .finite s ((2 : ℚ) ^ (-126 : ℤ) * ((f : ℚ) / 2 ^ k))
  else .finite s ((2 : ℚ) ^ ((e : ℤ) - 127) * (1 + (f : ℚ) / 2 ^ k))

/-- `val(p)` of an f32 pattern (00_scope.md R10). -/
def val32 (p : F32) : FpValue :=
  fieldsValue 23 (p.getLsbD 31) (exponent32 p).toNat (mantissa32 p).toNat

/-- `val(q)` of a bf16 pattern: "the same cases hold with 2^7 in place of 2^23" (00_scope.md R10). -/
def val16 (q : BF16) : FpValue :=
  fieldsValue 7 (q.getLsbD 15) (exponent16 q).toNat (mantissa16 q).toNat

/-- `F32_MAX` (00_scope.md R11). -/
def f32Max : F32 := 0x7F7FFFFF#32

/-- `BF16_MAX` (00_scope.md R11). -/
def bf16Max : BF16 := 0x7F7F#16

/-- `MIN_NORMAL` as f32 (00_scope.md R11). -/
def f32MinNormal : F32 := 0x00800000#32

/-- `MIN_NORMAL` as bf16 (00_scope.md R11). -/
def bf16MinNormal : BF16 := 0x0080#16

/-- `F32_MIN_DENORMAL` (00_scope.md R11). -/
def f32MinDenormal : F32 := 0x00000001#32

/-- `F32_INF` (00_scope.md R11). -/
def f32Inf : F32 := 0x7F800000#32

/-- The negative of `F32_INF` (00_scope.md R11). -/
def f32NegInf : F32 := 0xFF800000#32

/-- `BF16_INF` (00_scope.md R11). -/
def bf16Inf : BF16 := 0x7F80#16

/-- The negative of `BF16_INF` (00_scope.md R11). -/
def bf16NegInf : BF16 := 0xFF80#16

/-- `F32_QNAN` (00_scope.md R11). -/
def f32QNaN : F32 := 0x7FC00000#32

/-- `BF16_QNAN` (00_scope.md R11). -/
def bf16QNaN : BF16 := 0x7FC0#16

/-- `F32_EPSILON` (00_scope.md R11). -/
def f32Epsilon : F32 := 0x34000000#32

/-- `BF16_EPSILON` as bf16 (00_scope.md R11). -/
def bf16Epsilon : BF16 := 0x3C00#16

/-- `BF16_EPSILON` as f32 (00_scope.md R11). -/
def bf16EpsilonF32 : F32 := 0x3C000000#32

/-- The default bf16 value of a host's storage, positive zero (70_reset_and_hazards.md R242; outside
the block). -/
def hostDefaultBF16 : BF16 := 0x0000#16

end Sys2Proof.Machine
end

