-- ==== Sys2Proof/Config.lean ====
section
/-! DEFINITION. What an implementation or a host fixes (00_scope.md R7; 93_implementation_defined.md
I9, I10, I11). The fixed rows of R7's table are built into the types and rules that use them. -/

namespace Sys2Proof

/-- The values HOST_BYTE_ORDER ranges over. The spec leaves the parameter OPEN and gives no set of
values (00_scope.md R7; 20_memory.md R50, which names a little-endian host as an informative example
only). DESIGN CHOICE (log entry 9): exactly two, least or most significant byte first, and no mixed
order. -/
inductive ByteOrder where
  | little
  | big
  deriving DecidableEq, Repr, Inhabited

/-- `LATENCY`, OPEN: "Any value; no result depends on it" (00_scope.md R7; 70_reset_and_hazards.md
R245). No definition of the model reads it. -/
opaque Config.latency : Nat

/-- `HOST_BYTE_ORDER`, OPEN: "Used only outside the block" (00_scope.md R7; 20_memory.md R50). No
definition of the block reads it. That it is little or big is the model's DESIGN CHOICE (log entry
9). -/
opaque Config.hostByteOrder : ByteOrder

/-- `INT_WIDTHS`: the integer widths admitted, each signed or unsigned (00_scope.md R6, R7). -/
def Config.intWidths : List Nat := [8, 16, 32, 64]

end Sys2Proof
end

