-- ==== Sys2Proof/Syntax.lean ====
section
/-! DEFINITION. The syntax: one constructor of `Instr` per row of spec/opcode_table.json
(30_encoding.md R71), and the host's program syntax (30_encoding.md R77, R78). -/

namespace Sys2Proof

/-- One transaction, its op value turned into a constructor and its whole operand field `a[63:0]`
kept (30_encoding.md R70, R71). The bits above the operand are part of the word and ignored by the
meaning (R72). -/
inductive Instr where
  /-- op 0x0, `cvt.bf16.f32` (40_narrowing.md R100). -/
  | cvtBf16F32 (a : OperandWord)
  /-- op 0x1, `cvt.f32.bf16` (41_widening.md R130). -/
  | cvtF32Bf16 (a : OperandWord)
  /-- op 0x2, reserved (60_exceptions.md R201). -/
  | reserved2 (a : OperandWord)
  /-- op 0x3, reserved (60_exceptions.md R201). -/
  | reserved3 (a : OperandWord)
  /-- op 0x4, reserved (60_exceptions.md R201). -/
  | reserved4 (a : OperandWord)
  /-- op 0x5, reserved (60_exceptions.md R201). -/
  | reserved5 (a : OperandWord)
  /-- op 0x6, reserved (60_exceptions.md R201). -/
  | reserved6 (a : OperandWord)
  /-- op 0x7, reserved (60_exceptions.md R201). -/
  | reserved7 (a : OperandWord)
  /-- op 0x8, `cvt.bf16.u8` (42_integer_path.md R160). -/
  | cvtBf16U8 (a : OperandWord)
  /-- op 0x9, `cvt.bf16.u16` (42_integer_path.md R161). -/
  | cvtBf16U16 (a : OperandWord)
  /-- op 0xA, `cvt.bf16.u32` (42_integer_path.md R162). -/
  | cvtBf16U32 (a : OperandWord)
  /-- op 0xB, `cvt.bf16.u64` (42_integer_path.md R163). -/
  | cvtBf16U64 (a : OperandWord)
  /-- op 0xC, `cvt.bf16.s8` (42_integer_path.md R164). -/
  | cvtBf16S8 (a : OperandWord)
  /-- op 0xD, `cvt.bf16.s16` (42_integer_path.md R165). -/
  | cvtBf16S16 (a : OperandWord)
  /-- op 0xE, `cvt.bf16.s32` (42_integer_path.md R166). -/
  | cvtBf16S32 (a : OperandWord)
  /-- op 0xF, `cvt.bf16.s64` (42_integer_path.md R167). -/
  | cvtBf16S64 (a : OperandWord)
  deriving DecidableEq, Repr

/-- The operand of a host line: a literal, or the value the host holds as `rK`, the result of the
K-th transaction, K counting from 1 (30_encoding.md R77). -/
inductive HostOperand where
  | lit (v : OperandWord)
  | held (K : Nat)
  deriving DecidableEq, Repr

/-- One line of a host program, one transaction: `rK = <mnemonic> <operand>`, the mnemonic given by
its op value (30_encoding.md R71, R77; 92_eei_decisions.md D18). -/
structure Line where
  op : OpCode
  operand : HostOperand
  deriving DecidableEq, Repr

/-- The integer types a host may ask a conversion for. R6 admits some of them (00_scope.md R6). -/
inductive IntType where
  | int (signed : Bool) (width : Nat)
  | bool
  | char
  deriving DecidableEq, Repr

/-- A line as a host writes it, pseudo-operations included (30_encoding.md R77, R78). -/
inductive SourceLine where
  /-- A transaction written with its own op value. -/
  | plain (line : Line)
  /-- `rt32 rK, x`: round trip of an f32 pattern. -/
  | rt32 (x : HostOperand)
  /-- `rt16 rK, p`: re-narrowing of a bf16 pattern. -/
  | rt16 (p : HostOperand)
  /-- `cvt.bf16.iN x`, the synonym of `cvt.bf16.sN x`. -/
  | cvtI (width : Nat) (x : HostOperand)
  /-- A conversion of a value of an integer type, admitted or not (00_scope.md R6). -/
  | cvtInt (ty : IntType) (x : HostOperand)
  deriving DecidableEq, Repr

end Sys2Proof
end

