-- ==== Sys2Proof/Machine/Flags.lean ====
section
/-! DEFINITION. The one indication the block produces. It has no flags and no condition codes
(10_state.md R24); `illegal` says that `op` selects no operation (60_exceptions.md R201, R202). -/

namespace Sys2Proof.Machine

/-- The reserved op values 0x2 to 0x7 (30_encoding.md R75). -/
def isReservedOp (op : OpCode) : Bool := decide (0x2#4 ≤ op ∧ op ≤ 0x7#4)

/-- The value of `illegal` for a transaction with this op value (30_encoding.md R74; 60_exceptions.md
R201). -/
def illegalFlag (op : OpCode) : BitVec 1 := if isReservedOp op then 1#1 else 0#1

end Sys2Proof.Machine
end

