-- ==== Sys2Proof/Machine/Operands.lean ====
section
/-! DEFINITION. Operand assembly: the slice of `a` that each operation reads, and the value of an
integer operand (30_encoding.md R72, R73; 10_state.md R32). -/

namespace Sys2Proof.Machine

/-- The operand of `cvt.bf16.f32`: `a32 = a[31:0]` (30_encoding.md R72). -/
def operandF32 (a : OperandWord) : F32 := a.extractLsb' 0 32

/-- The operand of `cvt.f32.bf16`: `b16 = a[15:0]` (30_encoding.md R72). -/
def operandBF16 (a : OperandWord) : BF16 := a.extractLsb' 0 16

/-- The operand of an integer operation of width `W`: `i = a[W-1:0]` (30_encoding.md R72). -/
def operandInt (a : OperandWord) (W : Nat) : BitVec W := a.extractLsb' 0 W

/-- The value of an integer operand: `signed(i)` in two's complement when `sgn`, else `unsigned(i)`
(10_state.md R32; 42_integer_path.md R151). -/
def integerValue (a : OperandWord) (W : Nat) (sgn : Bool) : Int :=
  if sgn then (operandInt a W).toInt else ((operandInt a W).toNat : Int)

/-- The width the integer path's code `w` stands for: `W = 8 << w` (30_encoding.md R72; 10_state.md
R37). -/
def widthOfCode (w : BitVec 2) : Nat := 8 <<< w.toNat

/-- The code `w` of an admitted integer width (10_state.md R37; 00_scope.md R6). -/
def codeOfWidth : Nat → Option (BitVec 2)
  | 8 => some 0#2
  | 16 => some 1#2
  | 32 => some 2#2
  | 64 => some 3#2
  | _ => none

/-- The op value that converts a value of an integer type, `{1, sgn, w}`; none for a type that is
not admitted: other widths, `bool` and character types (30_encoding.md R70; 00_scope.md R6). -/
def integerOp : IntType → Option OpCode
  | .int signed width => (codeOfWidth width).map fun w => 1#1 ++ BitVec.ofBool signed ++ w
  | .bool => none
  | .char => none

/-- How many low bits of `a` the operation `op` reads; a reserved op value reads none
(30_encoding.md R72). -/
def operandWidth (op : OpCode) : Nat :=
  if op.getLsbD 3 then widthOfCode (op.extractLsb' 0 2)
  else if op = 0x0#4 then 32
  else if op = 0x1#4 then 16
  else 0

/-- The operand bits a transaction reads, as a number (30_encoding.md R72). -/
def operandBits (op : OpCode) (a : OperandWord) : Nat := a.toNat % 2 ^ operandWidth op

end Sys2Proof.Machine
end

