-- ==== Sys2Proof/WellFormed.lean ====
section
/-! DEFINITION. Well-formedness. Every transaction word is one of the ten operations or reserved, so
every `Instr` is well formed (30_encoding.md R75); the checks are on host lines (30_encoding.md R77,
R78; 00_scope.md R6). -/

namespace Sys2Proof

/-- Every operand field is admitted with every op value: "Any of the 2^32 patterns is admitted", the
ignored bits "may hold any value", and a reserved word is still a transaction (30_encoding.md R72,
R75). The fields' types leave nothing to check. -/
def Instr.wf : Instr → Bool
  | .cvtBf16F32 _ | .cvtF32Bf16 _ => true
  | .reserved2 _ | .reserved3 _ | .reserved4 _ | .reserved5 _ | .reserved6 _ | .reserved7 _ => true
  | .cvtBf16U8 _ | .cvtBf16U16 _ | .cvtBf16U32 _ | .cvtBf16U64 _ => true
  | .cvtBf16S8 _ | .cvtBf16S16 _ | .cvtBf16S32 _ | .cvtBf16S64 _ => true

/-- A host operand is well formed for `op` when `n` transactions precede it: a literal has the
operand's width (a reserved op value has no operand, so any literal will do), and a name `rK` is an
earlier one (30_encoding.md R77). -/
def HostOperand.wf (op : OpCode) (n : Nat) : HostOperand → Bool
  | .lit v => Machine.isReservedOp op || decide (v.toNat < 2 ^ Machine.operandWidth op)
  | .held K => decide (1 ≤ K ∧ K ≤ n)

/-- A line is well formed as the transaction after `n` others (30_encoding.md R77). -/
def Line.wf (n : Nat) (l : Line) : Bool := l.operand.wf l.op n

/-- A host program is well formed after `n` transactions (92_eei_decisions.md D18). -/
def Line.programWf : Nat → List Line → Bool
  | _, [] => true
  | n, l :: rest => l.wf n && Line.programWf (n + 1) rest

/-- The integer types R6 admits: widths 8, 16, 32 and 64, each signed or unsigned (00_scope.md R6). -/
def IntType.admitted : IntType → Bool
  | .int _ width => Config.intWidths.contains width
  | .bool => false
  | .char => false

/-- The operand of a conversion from an integer type is well formed: the type is admitted and the
operand fits the op value that converts it (00_scope.md R6; 30_encoding.md R77). -/
def IntType.operandWf (n : Nat) (ty : IntType) (x : HostOperand) : Bool :=
  ty.admitted && (match Machine.integerOp ty with
    | some op => x.wf op n
    | none => false)

/-- A source line is well formed after `n` transactions (30_encoding.md R77, R78; 00_scope.md R6). -/
def SourceLine.wf (n : Nat) : SourceLine → Bool
  | .plain l => l.wf n
  | .rt32 x => x.wf 0x0#4 n
  | .rt16 p => p.wf 0x1#4 n
  | .cvtI width x => IntType.operandWf n (.int true width) x
  | .cvtInt ty x => IntType.operandWf n ty x

end Sys2Proof
end

