-- ==== Sys2Proof/Decode.lean ====
section
/-! DEFINITION. The decoder, total on every 68-bit word, the encoder, and the opcode table
(30_encoding.md R70, R71, R75, R76). -/

namespace Sys2Proof

/-- The operation field `op = T[67:64]` (30_encoding.md R70). -/
def opField (T : TransactionWord) : OpCode := T.extractLsb' 64 4

/-- The operand field `a = T[63:0]` (30_encoding.md R70). -/
def operandField (T : TransactionWord) : OperandWord := T.extractLsb' 0 64

/-- `T = {op[3:0], a[63:0]}` (30_encoding.md R70). -/
def transactionWord (op : OpCode) (a : OperandWord) : TransactionWord := op ++ a

/-- The integer half of the operation map: `sgn = op[2]`, `w = op[1:0]` (30_encoding.md R73, R76). -/
def decodeInteger (sgn : Bool) (w : BitVec 2) (a : OperandWord) : Instr :=
  match sgn, w.toFin with
  | false, 0 => .cvtBf16U8 a
  | false, 1 => .cvtBf16U16 a
  | false, 2 => .cvtBf16U32 a
  | false, 3 => .cvtBf16U64 a
  | true, 0 => .cvtBf16S8 a
  | true, 1 => .cvtBf16S16 a
  | true, 2 => .cvtBf16S32 a
  | true, 3 => .cvtBf16S64 a

/-- The float half of the operation map, selected by `op[2:0]`: narrow, widen, or reserved
(30_encoding.md R76). -/
def decodeFloat (sel : BitVec 3) (a : OperandWord) : Instr :=
  match sel.toFin with
  | 0 => .cvtBf16F32 a
  | 1 => .cvtF32Bf16 a
  | 2 => .reserved2 a
  | 3 => .reserved3 a
  | 4 => .reserved4 a
  | 5 => .reserved5 a
  | 6 => .reserved6 a
  | 7 => .reserved7 a

/-- `Decode(T[67:0])`, total: "it decides from `T[67:64]` alone" (30_encoding.md R75, R76). -/
def decode (T : TransactionWord) : Instr :=
  let op := opField T
  let a := operandField T
  if op.getLsbD 3 then decodeInteger (op.getLsbD 2) (op.extractLsb' 0 2) a
  else decodeFloat (op.extractLsb' 0 3) a

/-- Why a number is no transaction (30_encoding.md R70). -/
inductive DecodeReject where
  /-- It has a bit above bit 67: the one length is 68 bits. -/
  | widerThanTransaction
  deriving DecidableEq, Repr

/-- Decode a number of any size: a number of at most 68 bits is a transaction word, and a wider one
is rejected by name (30_encoding.md R70, "one length, 68 bits"). -/
def decodeNumber (w : Nat) : Except DecodeReject Instr :=
  if w < 2 ^ 68 then .ok (decode (BitVec.ofNat 68 w)) else .error .widerThanTransaction

/-- The instruction the decoder reads from a word numbered as spec/opcode_table.json numbers it: bit
0 least significant, bits 67:64 the op field. The rows have 68 bits, so every bit of `w` above them
must be 0; `nbits` (68, or 72 in whole bytes) does not matter (log entry 11). -/
def decodeTableWord (_nbits w : Nat) : Option Instr :=
  match decodeNumber w with
  | .ok i => some i
  | .error _ => none

/-- The op value of an instruction (30_encoding.md R71). -/
def Instr.op : Instr → OpCode
  | .cvtBf16F32 _ => 0x0#4
  | .cvtF32Bf16 _ => 0x1#4
  | .reserved2 _ => 0x2#4
  | .reserved3 _ => 0x3#4
  | .reserved4 _ => 0x4#4
  | .reserved5 _ => 0x5#4
  | .reserved6 _ => 0x6#4
  | .reserved7 _ => 0x7#4
  | .cvtBf16U8 _ => 0x8#4
  | .cvtBf16U16 _ => 0x9#4
  | .cvtBf16U32 _ => 0xA#4
  | .cvtBf16U64 _ => 0xB#4
  | .cvtBf16S8 _ => 0xC#4
  | .cvtBf16S16 _ => 0xD#4
  | .cvtBf16S32 _ => 0xE#4
  | .cvtBf16S64 _ => 0xF#4

/-- The operand field of an instruction (30_encoding.md R70). -/
def Instr.operand : Instr → OperandWord
  | .cvtBf16F32 a | .cvtF32Bf16 a => a
  | .reserved2 a | .reserved3 a | .reserved4 a | .reserved5 a | .reserved6 a | .reserved7 a => a
  | .cvtBf16U8 a | .cvtBf16U16 a | .cvtBf16U32 a | .cvtBf16U64 a => a
  | .cvtBf16S8 a | .cvtBf16S16 a | .cvtBf16S32 a | .cvtBf16S64 a => a

/-- The transaction word of an instruction (30_encoding.md R70, R71). -/
def encode (i : Instr) : TransactionWord := transactionWord i.op i.operand

/-- The mnemonic of an instruction, as spec/opcode_table.json spells it (30_encoding.md R71). -/
def Instr.mnemonic : Instr → String
  | .cvtBf16F32 _ => "cvt.bf16.f32"
  | .cvtF32Bf16 _ => "cvt.f32.bf16"
  | .reserved2 _ => "reserved.2"
  | .reserved3 _ => "reserved.3"
  | .reserved4 _ => "reserved.4"
  | .reserved5 _ => "reserved.5"
  | .reserved6 _ => "reserved.6"
  | .reserved7 _ => "reserved.7"
  | .cvtBf16U8 _ => "cvt.bf16.u8"
  | .cvtBf16U16 _ => "cvt.bf16.u16"
  | .cvtBf16U32 _ => "cvt.bf16.u32"
  | .cvtBf16U64 _ => "cvt.bf16.u64"
  | .cvtBf16S8 _ => "cvt.bf16.s8"
  | .cvtBf16S16 _ => "cvt.bf16.s16"
  | .cvtBf16S32 _ => "cvt.bf16.s32"
  | .cvtBf16S64 _ => "cvt.bf16.s64"

/-- One row of spec/opcode_table.json. -/
structure OpcodeRow where
  mnemonic : String
  pattern : TransactionWord
  mask : TransactionWord
  deriving DecidableEq, Repr

/-- A word belongs to a row when its masked bits are the row's (30_encoding.md R71). -/
def OpcodeRow.matches (r : OpcodeRow) (T : TransactionWord) : Bool := T &&& r.mask == r.pattern

/-- The mask of every row (30_encoding.md R71). -/
def opMask : TransactionWord := 0xF0000000000000000#68

/-- The rows of the float half of spec/opcode_table.json, reserved op values included. -/
def opcodeRowsFloat : List OpcodeRow :=
  [ ⟨"cvt.bf16.f32", 0x00000000000000000#68, opMask⟩,
    ⟨"cvt.f32.bf16", 0x10000000000000000#68, opMask⟩,
    ⟨"reserved.2", 0x20000000000000000#68, opMask⟩,
    ⟨"reserved.3", 0x30000000000000000#68, opMask⟩,
    ⟨"reserved.4", 0x40000000000000000#68, opMask⟩,
    ⟨"reserved.5", 0x50000000000000000#68, opMask⟩,
    ⟨"reserved.6", 0x60000000000000000#68, opMask⟩,
    ⟨"reserved.7", 0x70000000000000000#68, opMask⟩ ]

/-- The rows of the integer half of spec/opcode_table.json. -/
def opcodeRowsInteger : List OpcodeRow :=
  [ ⟨"cvt.bf16.u8", 0x80000000000000000#68, opMask⟩,
    ⟨"cvt.bf16.u16", 0x90000000000000000#68, opMask⟩,
    ⟨"cvt.bf16.u32", 0xA0000000000000000#68, opMask⟩,
    ⟨"cvt.bf16.u64", 0xB0000000000000000#68, opMask⟩,
    ⟨"cvt.bf16.s8", 0xC0000000000000000#68, opMask⟩,
    ⟨"cvt.bf16.s16", 0xD0000000000000000#68, opMask⟩,
    ⟨"cvt.bf16.s32", 0xE0000000000000000#68, opMask⟩,
    ⟨"cvt.bf16.s64", 0xF0000000000000000#68, opMask⟩ ]

/-- spec/opcode_table.json, row by row (30_encoding.md R71). -/
def opcodeTable : List OpcodeRow := opcodeRowsFloat ++ opcodeRowsInteger

end Sys2Proof
end

