-- ==== Sys2Proof/Machine/State.lean ====
section
/-! DEFINITION. The state: the block's ports and the host's side of a run. The block itself holds no
architectural state (10_state.md R20 to R27; log entry 1). -/

namespace Sys2Proof.Machine

/-- The faults of a host program. -/
inductive Fault where
  /-- A transaction presented a reserved op value. Every `reserved` meaning RECORDS it in `log` and
  goes on; no step ends in it. It is the record R201 asks for: "record it, and give it no result
  value" (60_exceptions.md R201). Safe: the host holds no value for such a transaction. -/
  | reservedOp (op : OpCode)
  /-- The host's next line names `rK` and transaction K faulted, so `rK` has no result value: "A host
  must not use the `y` of such a transaction as a result" (60_exceptions.md R201). Raised by the step
  that would present the line. Safe: the step stops. -/
  | useOfFaultedResult (K : Nat)
  /-- The host's next line names an `rK` that is not an earlier result (30_encoding.md R77). Raised by
  the step that would present the line. Safe: the step stops. -/
  | noSuchResult (K : Nat)
  deriving DecidableEq, Repr

/-- What the model gives no meaning to. -/
inductive Refusal where
  /-- An instruction whose meaning is not written. No arm of `exec` raises it: all are modelled. Safe. -/
  | notModelled (mnemonic : String)
  /-- The input ports are not fully defined values: "A model whose inputs are not fully defined values
  refuses the transaction" (92_eei_decisions.md D22; 93_implementation_defined.md I8). Raised by the
  step. Safe. -/
  | undefinedInputs
  /-- A host asked for a conversion of an integer type that is not admitted (00_scope.md R6;
  93_implementation_defined.md I11). Raised by the expansion of a source line, never by a step. Safe. -/
  | integerTypeNotAdmitted (ty : IntType)
  deriving DecidableEq, Repr

/-- What the host keeps of one transaction: its result, or the fault it records, which has no result
value (60_exceptions.md R201; 70_reset_and_hazards.md R247). -/
inductive Observation where
  | result (y : BitVec 32)
  | fault (f : Fault)
  deriving DecidableEq, Repr

/-- The pair `(illegal, y)` observed: `(0, result)` for an operation, `(1, 0x00000000)` for a reserved
op value (70_reset_and_hazards.md R247). -/
def Observation.pair : Observation → BitVec 1 × BitVec 32
  | .result y => (0#1, y)
  | .fault _ => (1#1, 0x00000000#32)

/-- The block's ports (10_state.md R34) and the host's side of a run (92_eei_decisions.md D18, D22;
70_reset_and_hazards.md R247). INVENTORY.md lists every field. -/
structure State where
  /-- Input port `op`. -/
  op : OpCode
  /-- Input port `a`. -/
  a : OperandWord
  /-- Every bit of `op` and `a` is a driven 0 or 1. -/
  inputsDefined : Bool
  /-- Output port `y`. Unspecified by the spec while the inputs are not defined: log entry 6. -/
  y : BitVec 32
  /-- Output port `illegal`. Unspecified by the spec while the inputs are not defined: log entry 6. -/
  illegal : BitVec 1
  /-- Host: the lines still to be presented, in order. -/
  program : List Line
  /-- Host: the observations so far, oldest first. -/
  log : List Observation
  deriving DecidableEq, Repr

/-- The block after power-up, before any transaction of a host program. The spec gives no reset value
and no reset input: `y` and `illegal` are the functions of `op` and `a` (70_reset_and_hazards.md
R240), which the model has at 0 and driven (DESIGN CHOICE, log entry 2), with no host program loaded
(DESIGN CHOICE, log entry 4). -/
def State.reset : State where
  op := 0x0#4
  a := 0#64
  inputsDefined := true
  y := 0x00000000#32
  illegal := 0#1
  program := []
  log := []

end Sys2Proof.Machine
end

