-- ==== Sys2Proof/Machine/Ops.lean ====
section
/-! DEFINITION. The shared operations: driving the result ports, the indication for a reserved op
value, and the host's acts on the input ports. -/

namespace Sys2Proof.Machine

/-- `y <- v` and `illegal <- 0`; the host observes the result (00_scope.md R9; 30_encoding.md R74;
70_reset_and_hazards.md R247). Nothing else changes (10_state.md R20, R24). -/
def State.driveResult (v : BitVec 32) (s : State) : State :=
  { s with y := v, illegal := 0#1, log := s.log ++ [.result v] }

/-- `y <- {16'h0000, y16}` and `illegal <- 0`: the placement of a 16-bit result (30_encoding.md R74). -/
def State.driveResult16 (y16 : BF16) (s : State) : State :=
  s.driveResult (0x0000#16 ++ y16)

/-- `raise Illegal(op)`: `illegal <- 1` and `y <- 32'h00000000`. The block records nothing and changes
no state; the host records the fault and holds no result value (60_exceptions.md R201). It is this
hardware's only indication, and no trap: nothing is saved and control goes nowhere (R202, R205). -/
def State.raiseIllegal (op : OpCode) (s : State) : State :=
  { s with y := 0x00000000#32, illegal := 1#1, log := s.log ++ [.fault (.reservedOp op)] }

/-- The host drives the input ports with defined values (10_state.md R34; 30_encoding.md R70). -/
def State.driveInputs (op : OpCode) (a : OperandWord) (s : State) : State :=
  { s with op := op, a := a, inputsDefined := true }

/-- The host leaves some input bit without a defined value (92_eei_decisions.md D22). What then stands
on `y` and `illegal` the spec leaves unspecified (70_reset_and_hazards.md R241; D22). DESIGN CHOICE
(log entry 6): they keep their last values. No step reads them: a step on undefined inputs is refused,
and a host line drives defined ones. -/
def State.releaseInputs (s : State) : State :=
  { s with inputsDefined := false }

/-- The transaction word on the input ports (30_encoding.md R70). -/
def State.presented (s : State) : TransactionWord := transactionWord s.op s.a

end Sys2Proof.Machine
end

