-- ==== Sys2Proof/Machine/Narrowing.lean ====
section
/-! DEFINITION. The sub-block `f32_to_bf16` and the operation `cvt.bf16.f32` (40_narrowing.md R100 to
R107). -/

namespace Sys2Proof.Machine

/-- Whether the discarded bits round the kept ones up: above the tie, or at the tie when the kept low
bit is 1 (40_narrowing.md R100, R101). -/
def narrowRoundsUp (a32 : F32) : Bool :=
  decide (0x8000#16 < low16 a32) || (low16 a32 == 0x8000#16 && (high16 a32).getLsbD 0)

/-- `Narrow(a32)`, with the four tests in the order of R100's pseudocode: NaN (R103), infinity (R104),
zero or denormal (R105), normal with overflow by the carry (R106, R107). -/
def narrow (a32 : F32) : BF16 :=
  if exponent32 a32 = 0xFF#8 ∧ mantissa32 a32 ≠ 0#23 then high16 a32 ||| 0x0040#16
  else if exponent32 a32 = 0xFF#8 then high16 a32
  else if exponent32 a32 = 0x00#8 then sign32 a32 ++ 0#15
  else high16 a32 + (if narrowRoundsUp a32 then 0x0001#16 else 0x0000#16)

/-- `cvt.bf16.f32` (40_narrowing.md R100). -/
def execCvtBf16F32 (a : OperandWord) (s : State) : Host.Outcome State Fault Refusal :=
  .next (s.driveResult16 (narrow (operandF32 a)))

end Sys2Proof.Machine
end

