-- ==== Sys2Proof/Machine/IntegerPath.lean ====
section
/-! DEFINITION. The integer path and its eight operations: the integer's value, its nearest f32, then
Narrow (42_integer_path.md R150 to R167). -/

namespace Sys2Proof.Machine

/-- `floor_log2(m)`: for `m >= 1`, the largest e with `2^e <= m` (00_scope.md R9). -/
def floorLog2 (m : Nat) : Nat := Nat.log2 m

/-- Round `m >> sh` to nearest, ties to even, by the remainder `m mod 2^sh` (42_integer_path.md R151,
R152). -/
def roundShift (m sh : Nat) : Nat :=
  let sig := m >>> sh
  let rem := m % 2 ^ sh
  let half := 2 ^ (sh - 1)
  if rem > half ∨ (rem = half ∧ sig % 2 = 1) then sig + 1 else sig

/-- The exponent and the 24-bit significand of the f32 nearest to `m >= 1`, after the carry out of the
significand (42_integer_path.md R151). -/
def roundSignificand (m : Nat) : Nat × Nat :=
  let e := floorLog2 m
  if e ≤ 23 then (e, m <<< (23 - e))
  else
    let sig := roundShift m (e - 23)
    if sig = 2 ^ 24 then (e + 1, 2 ^ 23) else (e, sig)

/-- `{neg, (e + 127)[7:0], sig[22:0]}` (42_integer_path.md R151). -/
def packF32 (neg : Bool) (e sig : Nat) : F32 :=
  BitVec.ofBool neg ++ BitVec.ofNat 8 (e + 127) ++ BitVec.ofNat 23 sig

/-- The f32 nearest to an integer, +0 for zero (42_integer_path.md R151, R152, R153). -/
def f32OfInt (n : Int) : F32 :=
  if n = 0 then 0x00000000#32
  else packF32 (decide (n < 0)) (roundSignificand n.natAbs).1 (roundSignificand n.natAbs).2

/-- `IntToF32(i64, W, sgn)`, the internal signal `f32_mid` (42_integer_path.md R151; 10_state.md R37). -/
def intToF32 (i64 : OperandWord) (W : Nat) (sgn : Bool) : F32 := f32OfInt (integerValue i64 W sgn)

/-- `IntToBf16(i, W, sgn) = Narrow(IntToF32(i, W, sgn))` (42_integer_path.md R150). -/
def intToBf16 (i64 : OperandWord) (W : Nat) (sgn : Bool) : BF16 := narrow (intToF32 i64 W sgn)

/-- What a SINGLE rounding of `m >= 1` to 8 significant bits would give. The block does not compute it;
R155 compares the path with it (42_integer_path.md R155). -/
def singleRoundedBF16 (m : Nat) : BF16 :=
  let e := floorLog2 m
  if e ≤ 7 then 0#1 ++ BitVec.ofNat 8 (e + 127) ++ BitVec.ofNat 7 (m <<< (7 - e))
  else
    let sig := roundShift m (e - 7)
    if sig = 2 ^ 8 then 0#1 ++ BitVec.ofNat 8 (e + 1 + 127) ++ 0#7
    else 0#1 ++ BitVec.ofNat 8 (e + 127) ++ BitVec.ofNat 7 sig

/-- `m` has at most `k` significant bits (40_narrowing.md R112; 42_integer_path.md R156). -/
def SignificantBitsAtMost (k m : Nat) : Prop := ∃ c j : Nat, c < 2 ^ k ∧ m = c * 2 ^ j

/-- `cvt.bf16.u8` (42_integer_path.md R160). -/
def execCvtBf16U8 (a : OperandWord) (s : State) : Host.Outcome State Fault Refusal :=
  .next (s.driveResult16 (intToBf16 a 8 false))

/-- `cvt.bf16.u16` (42_integer_path.md R161). -/
def execCvtBf16U16 (a : OperandWord) (s : State) : Host.Outcome State Fault Refusal :=
  .next (s.driveResult16 (intToBf16 a 16 false))

/-- `cvt.bf16.u32` (42_integer_path.md R162). -/
def execCvtBf16U32 (a : OperandWord) (s : State) : Host.Outcome State Fault Refusal :=
  .next (s.driveResult16 (intToBf16 a 32 false))

/-- `cvt.bf16.u64` (42_integer_path.md R163). -/
def execCvtBf16U64 (a : OperandWord) (s : State) : Host.Outcome State Fault Refusal :=
  .next (s.driveResult16 (intToBf16 a 64 false))

/-- `cvt.bf16.s8` (42_integer_path.md R164). -/
def execCvtBf16S8 (a : OperandWord) (s : State) : Host.Outcome State Fault Refusal :=
  .next (s.driveResult16 (intToBf16 a 8 true))

/-- `cvt.bf16.s16` (42_integer_path.md R165). -/
def execCvtBf16S16 (a : OperandWord) (s : State) : Host.Outcome State Fault Refusal :=
  .next (s.driveResult16 (intToBf16 a 16 true))

/-- `cvt.bf16.s32` (42_integer_path.md R166). -/
def execCvtBf16S32 (a : OperandWord) (s : State) : Host.Outcome State Fault Refusal :=
  .next (s.driveResult16 (intToBf16 a 32 true))

/-- `cvt.bf16.s64` (42_integer_path.md R167). -/
def execCvtBf16S64 (a : OperandWord) (s : State) : Host.Outcome State Fault Refusal :=
  .next (s.driveResult16 (intToBf16 a 64 true))

end Sys2Proof.Machine
end

