-- ==== Sys2Proof/Machine/Reserved.lean ====
section
/-! DEFINITION. The six reserved op values: `raise Illegal(op)`, no operand read, the run goes on
(30_encoding.md R75; 60_exceptions.md R201; log entry 3). -/

namespace Sys2Proof.Machine

/-- op 0x2 (60_exceptions.md R201). -/
def execReserved2 (_a : OperandWord) (s : State) : Host.Outcome State Fault Refusal :=
  .next (s.raiseIllegal 0x2#4)

/-- op 0x3 (60_exceptions.md R201). -/
def execReserved3 (_a : OperandWord) (s : State) : Host.Outcome State Fault Refusal :=
  .next (s.raiseIllegal 0x3#4)

/-- op 0x4 (60_exceptions.md R201). -/
def execReserved4 (_a : OperandWord) (s : State) : Host.Outcome State Fault Refusal :=
  .next (s.raiseIllegal 0x4#4)

/-- op 0x5 (60_exceptions.md R201). -/
def execReserved5 (_a : OperandWord) (s : State) : Host.Outcome State Fault Refusal :=
  .next (s.raiseIllegal 0x5#4)

/-- op 0x6 (60_exceptions.md R201). -/
def execReserved6 (_a : OperandWord) (s : State) : Host.Outcome State Fault Refusal :=
  .next (s.raiseIllegal 0x6#4)

/-- op 0x7 (60_exceptions.md R201). -/
def execReserved7 (_a : OperandWord) (s : State) : Host.Outcome State Fault Refusal :=
  .next (s.raiseIllegal 0x7#4)

end Sys2Proof.Machine
end

