-- ==== Sys2Proof/Machine/Widening.lean ====
section
/-! DEFINITION. The sub-block `bf16_to_f32` and the operation `cvt.f32.bf16` (41_widening.md R130,
R131). -/

namespace Sys2Proof.Machine

/-- `Widen(b16) = {b16, 16'h0000}`: "No rounding, no special-casing" (41_widening.md R130, R131). -/
def widen (b16 : BF16) : F32 := b16 ++ 0x0000#16

/-- `cvt.f32.bf16` (41_widening.md R130). -/
def execCvtF32Bf16 (a : OperandWord) (s : State) : Host.Outcome State Fault Refusal :=
  .next (s.driveResult (widen (operandBF16 a)))

end Sys2Proof.Machine
end

