-- ==== Sys2Proof/Machine/Dispatch.lean ====
section
/-! DEFINITION. One arm per constructor of Instr. -/

namespace Sys2Proof.Machine

def exec (i : Instr) (s : State) : Host.Outcome State Fault Refusal :=
  match i with
  | .cvtBf16F32 a => Sys2Proof.Machine.execCvtBf16F32 a s
  | .cvtF32Bf16 a => Sys2Proof.Machine.execCvtF32Bf16 a s
  | .reserved2 a => Sys2Proof.Machine.execReserved2 a s
  | .reserved3 a => Sys2Proof.Machine.execReserved3 a s
  | .reserved4 a => Sys2Proof.Machine.execReserved4 a s
  | .reserved5 a => Sys2Proof.Machine.execReserved5 a s
  | .reserved6 a => Sys2Proof.Machine.execReserved6 a s
  | .reserved7 a => Sys2Proof.Machine.execReserved7 a s
  | .cvtBf16U8 a => Sys2Proof.Machine.execCvtBf16U8 a s
  | .cvtBf16U16 a => Sys2Proof.Machine.execCvtBf16U16 a s
  | .cvtBf16U32 a => Sys2Proof.Machine.execCvtBf16U32 a s
  | .cvtBf16U64 a => Sys2Proof.Machine.execCvtBf16U64 a s
  | .cvtBf16S8 a => Sys2Proof.Machine.execCvtBf16S8 a s
  | .cvtBf16S16 a => Sys2Proof.Machine.execCvtBf16S16 a s
  | .cvtBf16S32 a => Sys2Proof.Machine.execCvtBf16S32 a s
  | .cvtBf16S64 a => Sys2Proof.Machine.execCvtBf16S64 a s

end Sys2Proof.Machine
end

