-- ==== Sys2Proof/Machine/Datapath.lean ====
section
/-! DEFINITION. The block as a datapath: the three sub-blocks with their own ports (10_state.md R35,
R36, R37) and the output ports as functions of `op` and `a` alone (10_state.md R34; 30_encoding.md
R73, R74, R76). The instruction meanings do not use it; that the two agree is a statement. -/

namespace Sys2Proof.Machine

/-- Sub-block `f32_to_bf16` (10_state.md R35). -/
def f32ToBf16 (a32 : F32) : BF16 := narrow a32

/-- Sub-block `bf16_to_f32` (10_state.md R36). -/
def bf16ToF32 (b16 : BF16) : F32 := widen b16

/-- Sub-block `int_to_bf16_via_f32` with its ports `i64`, `w`, `sgn` and its internal signal `f32_mid`
(10_state.md R37). -/
def intToBf16ViaF32 (i64 : OperandWord) (w : BitVec 2) (sgn : BitVec 1) : BF16 :=
  let f32Mid := intToF32 i64 (widthOfCode w) (sgn == 1#1)
  f32ToBf16 f32Mid

/-- The output ports (10_state.md R34). -/
structure Outputs where
  illegal : BitVec 1
  y : BitVec 32
  deriving DecidableEq, Repr

/-- `y` and `illegal` as functions of `op` and `a` alone (10_state.md R34; 30_encoding.md R73, R74,
R76; 60_exceptions.md R201). -/
def outputs (op : OpCode) (a : OperandWord) : Outputs :=
  if op.getLsbD 3 then
    ⟨illegalFlag op, 0x0000#16 ++ intToBf16ViaF32 a (op.extractLsb' 0 2) (op.extractLsb' 2 1)⟩
  else if op = 0x0#4 then ⟨illegalFlag op, 0x0000#16 ++ f32ToBf16 (operandF32 a)⟩
  else if op = 0x1#4 then ⟨illegalFlag op, bf16ToF32 (operandBF16 a)⟩
  else ⟨illegalFlag op, 0x00000000#32⟩

/-- What the host keeps of a transaction: its result, or the recorded fault (60_exceptions.md R201;
70_reset_and_hazards.md R247). -/
def observe (op : OpCode) (a : OperandWord) : Observation :=
  if isReservedOp op then .fault (.reservedOp op) else .result (outputs op a).y

end Sys2Proof.Machine
end

