-- ==== Sys2Proof/Machine/HostProgram.lean ====
section
/-! DEFINITION. The host's side of a run: the operand of a line, presenting the next transaction,
pseudo-operations, and storage outside the block (30_encoding.md R77, R78; 92_eei_decisions.md D18;
20_memory.md R50). -/

namespace Sys2Proof.Machine

/-- What the host holds as `rK`: the observation of the K-th transaction, K counting from 1
(30_encoding.md R77). -/
def heldObservation (log : List Observation) : Nat → Option Observation
  | 0 => none
  | k + 1 => log[k]?

/-- The value the host drives on `a` for a line. A literal is driven as it is. For a name `rK` it
"presents the low bits of that value", as many as the operation reads (30_encoding.md R72, R77).
The rest of `a` is the model's DESIGN CHOICE (log entry 7): zero. For an operand of 8, 16 or 32 bits
the block ignores that rest. An operand of 64 bits (op 0xB, 0xF) is wider than the 32-bit result, so
its bits 63:32 ARE read, and the spec does not say what they hold: the choice is zero-extension, so
`cvt.bf16.s64` reads the name as a non-negative integer. A name without a result value stops the host
(60_exceptions.md R201). -/
def lineOperand (log : List Observation) (l : Line) : Except Fault OperandWord :=
  match l.operand with
  | .lit v => .ok v
  | .held K =>
    match heldObservation log K with
    | some (.result y) => .ok (BitVec.ofNat 64 (y.toNat % 2 ^ operandWidth l.op))
    | some (.fault _) => .error (.useOfFaultedResult K)
    | none => .error (.noSuchResult K)

/-- The host takes its next line and drives the input ports with it; with no line left it holds the
inputs as they are (92_eei_decisions.md D18; log entry 5). -/
def presentNext (s : State) : Host.Outcome State Fault Refusal :=
  match s.program with
  | [] => if s.inputsDefined then .next s else .refused .undefinedInputs
  | l :: rest =>
    match lineOperand s.log l with
    | .ok a => .next ({ s with program := rest }.driveInputs l.op a)
    | .error f => .fault f

/-- The line that presents a transaction word (30_encoding.md R70). -/
def lineOfWord (T : TransactionWord) : Line := ⟨opField T, .lit (operandField T)⟩

/-- The host queues a transaction word in front of its program. -/
def State.queueWord (T : TransactionWord) (s : State) : State :=
  { s with program := lineOfWord T :: s.program }

/-- The transactions a source line stands for, when `n` transactions precede it: `rt32`, `rt16` and
`cvt.bf16.iN` expand as R78 shows, and an integer type that is not admitted is refused
(30_encoding.md R77, R78; 00_scope.md R6). -/
def expandSource (n : Nat) : SourceLine → Except Refusal (List Line)
  | .plain l => .ok [l]
  | .rt32 x => .ok [⟨0x0#4, x⟩, ⟨0x1#4, .held (n + 1)⟩]
  | .rt16 p => .ok [⟨0x1#4, p⟩, ⟨0x0#4, .held (n + 1)⟩]
  | .cvtI width x => expandInt (.int true width) x
  | .cvtInt ty x => expandInt ty x
where
  expandInt (ty : IntType) (x : HostOperand) : Except Refusal (List Line) :=
    match integerOp ty with
    | some op => .ok [⟨op, x⟩]
    | none => .error (.integerTypeNotAdmitted ty)

/-- The transactions of a host's source, after `n` others (30_encoding.md R78; 92_eei_decisions.md
D18). -/
def assemble (n : Nat) : List SourceLine → Except Refusal (List Line)
  | [] => .ok []
  | l :: rest =>
    match expandSource n l with
    | .error r => .error r
    | .ok ls =>
      match assemble (n + ls.length) rest with
      | .error r => .error r
      | .ok more => .ok (ls ++ more)

/-- The bytes of a pattern of `k` bytes in host storage, lowest address first (20_memory.md R50;
outside the block, and read by no rule of it). The two orders are the model's DESIGN CHOICE (log
entry 9). -/
def storedBytes (order : ByteOrder) (k : Nat) (p : BitVec (8 * k)) : List Byte :=
  let le := (List.range k).map fun i => p.extractLsb' (8 * i) 8
  match order with
  | .little => le
  | .big => le.reverse

/-- The bytes of a pattern in this host's storage, in the open order HOST_BYTE_ORDER (20_memory.md
R50). -/
def hostStoredBytes (k : Nat) (p : BitVec (8 * k)) : List Byte := storedBytes Config.hostByteOrder k p

end Sys2Proof.Machine
end

