-- ==== Sys2Proof/Machine/Step.lean ====
section
/-! DEFINITION. One step is one transaction: the host presents it on the input ports, the decoder
selects the operation, and its meaning drives the result ports (10_state.md R22; 30_encoding.md R70,
R76; 70_reset_and_hazards.md R247). -/

namespace Sys2Proof.Machine

def step (s : State) : Host.Outcome State Fault Refusal :=
  match presentNext s with
  | .next t => exec (decode t.presented) t
  | .fault f => .fault f
  | .refused r => .refused r

/-- `s` with the transaction word `w` as the next one the host presents (log entries 4 and 11). -/
def State.withFetchWord (s : State) (_nbits w : Nat) : State :=
  s.queueWord (BitVec.ofNat 68 w)

end Sys2Proof.Machine
end

