-- ==== Sys2Proof/Machine/Run.lean ====
section
/-! DEFINITION. A run: so many steps, ending at the first that answers no next state (70_reset_and_hazards.md
R247). It is the host interface's own run (Laws/Exec.lean proves so), on the machine's own state type. -/

namespace Sys2Proof.Machine

/-- `k` transactions in order. -/
def run : Nat → State → Host.Outcome State Fault Refusal
  | 0, s => .next s
  | k + 1, s =>
    match step s with
    | .next t => run k t
    | .fault f => .fault f
    | .refused r => .refused r

end Sys2Proof.Machine
end

