-- ==== Sys2Proof/Safety.lean ====
section
/-! DEFINITION. What counts as a safe run, and the invariant every step keeps. -/

namespace Sys2Proof.Machine

/-- The output ports are the functions of the input ports (70_reset_and_hazards.md R240; 10_state.md
R34). -/
def State.Settled (s : State) : Prop := outputs s.op s.a = ⟨s.illegal, s.y⟩

/-- A result of narrowing: a signed zero, a normal number, an infinity or a quiet NaN (10_state.md
R30). -/
def isNarrowClass (q : BF16) : Bool := isZero16 q || isNormal16 q || isInfinite16 q || isQuiet16 q

/-- A 32-bit result the block can drive: a placed 16-bit result of narrowing, or a widened pattern
(30_encoding.md R74; 10_state.md R30; 41_widening.md R130). -/
def isBlockResult (y : BitVec 32) : Bool :=
  (high16 y == 0#16 && isNarrowClass (low16 y)) || low16 y == 0#16

/-- An observation the block can give: one of its results, or the fault of a reserved op value; never
a stop of the host (60_exceptions.md R202; 70_reset_and_hazards.md R247). -/
def Observation.ofBlock : Observation → Bool
  | .result y => isBlockResult y
  | .fault (.reservedOp op) => isReservedOp op
  | .fault (.useOfFaultedResult _) => false
  | .fault (.noSuchResult _) => false

/-- The invariant: driven inputs have settled outputs, and every observation is one the block can
give. It says nothing of the outputs while the inputs are not defined (log entry 6). -/
structure State.Inv (s : State) : Prop where
  settled : s.inputsDefined = true → s.Settled
  observed : ∀ o ∈ s.log, o.ofBlock = true

/-- A run without a recorded fault: no transaction presented a reserved op value. "a program that uses
a reserved op is refused" (60_exceptions.md R201; 92_eei_decisions.md D4): a claim about a host
program's results takes this as its premise. -/
def State.FaultFree (s : State) : Prop := ∀ o ∈ s.log, ∃ y, o = .result y

end Sys2Proof.Machine
end

