-- ==== Sys2Proof/Certificates/Slice0/Obligations.lean ====
section
/-! DEFINITION. The statements for the provers. OBLIGATIONS.json lists them with the rules they cite. -/

open Sys2Proof Sys2Proof.Machine

/-! ## Encoding -/

/-- No bit of a transaction word is dropped by encoding and decoding (30_encoding.md R70, R71, R76). -/
def Obligations.DecodeOfEncodeIsIdentity : Prop :=
  ∀ i : Instr, decode (encode i) = i

/-- Every 68-bit word has one meaning, and that meaning has that word only (30_encoding.md R75). -/
def Obligations.EncodeOfDecodeIsIdentity : Prop :=
  ∀ T : TransactionWord, encode (decode T) = T

/-- A word matches a row of the opcode table exactly when the decoder reads that row's operation from
it: the rows are disjoint, total and agree with R76 (30_encoding.md R71, R75, R76). -/
def Obligations.OpcodeTableAgreesWithDecoder : Prop :=
  opcodeTable.length = 16 ∧
  ∀ T : TransactionWord, ∀ r ∈ opcodeTable,
    r.mask = 0xF0000000000000000#68 ∧
    (r.matches T = true ↔ r.mnemonic = (decode T).mnemonic)

/-- The operation map (30_encoding.md R71). -/
def Obligations.OperationMapByOpValue : Prop :=
  ∀ a : OperandWord,
    decode (transactionWord 0x0#4 a) = .cvtBf16F32 a ∧
    decode (transactionWord 0x1#4 a) = .cvtF32Bf16 a ∧
    decode (transactionWord 0x2#4 a) = .reserved2 a ∧
    decode (transactionWord 0x3#4 a) = .reserved3 a ∧
    decode (transactionWord 0x4#4 a) = .reserved4 a ∧
    decode (transactionWord 0x5#4 a) = .reserved5 a ∧
    decode (transactionWord 0x6#4 a) = .reserved6 a ∧
    decode (transactionWord 0x7#4 a) = .reserved7 a ∧
    decode (transactionWord 0x8#4 a) = .cvtBf16U8 a ∧
    decode (transactionWord 0x9#4 a) = .cvtBf16U16 a ∧
    decode (transactionWord 0xA#4 a) = .cvtBf16U32 a ∧
    decode (transactionWord 0xB#4 a) = .cvtBf16U64 a ∧
    decode (transactionWord 0xC#4 a) = .cvtBf16S8 a ∧
    decode (transactionWord 0xD#4 a) = .cvtBf16S16 a ∧
    decode (transactionWord 0xE#4 a) = .cvtBf16S32 a ∧
    decode (transactionWord 0xF#4 a) = .cvtBf16S64 a

/-- Words written out from the format table and the vectors of 95_test_vectors.md decode to the
operations they stand for (30_encoding.md R70, R71). -/
def Obligations.WrittenOutWordsDecode : Prop :=
  decode 0x0FFFFFFFF3F800000#68 = .cvtBf16F32 0xFFFFFFFF3F800000#64 ∧
  decode 0x1ABCDEF0123453F80#68 = .cvtF32Bf16 0xABCDEF0123453F80#64 ∧
  decode 0x5000000007F7F7FFF#68 = .reserved5 0x000000007F7F7FFF#64 ∧
  decode 0xA0000000001010001#68 = .cvtBf16U32 0x0000000001010001#64 ∧
  decode 0xC12345678ABCDEFFF#68 = .cvtBf16S8 0x12345678ABCDEFFF#64

/-! ## The step -/

/-- A step runs the decoded transaction. With a line waiting whose operand is a literal, the host
drives the inputs with the line and the block runs it; with none waiting, the block runs the defined
inputs as they stand (the model's choice, log entries 4 and 5; 30_encoding.md R70, R76). -/
def Obligations.StepRunsDecodedTransaction : Prop :=
  (∀ (s : State) (op : OpCode) (v : OperandWord) (rest : List Line),
    s.program = ⟨op, .lit v⟩ :: rest →
    step s = exec (decode (transactionWord op v))
      { s with op := op, a := v, inputsDefined := true, program := rest }) ∧
  (∀ s : State, s.program = [] → s.inputsDefined = true →
    step s = exec (decode (transactionWord s.op s.a)) s)

/-- An operand `rK` is the K-th result, and the host presents as many of its low bits as the operation
reads (30_encoding.md R72, R77). The zeros in the rest of `a` are the model's choice, log entry 7: also
in bits 63:32 of the operand of op 0xB and 0xF, which the operation reads. -/
def Obligations.StepPresentsEarlierResult : Prop :=
  ∀ (s : State) (op : OpCode) (k : Nat) (y : BitVec 32) (rest : List Line),
    s.program = ⟨op, .held (k + 1)⟩ :: rest → s.log[k]? = some (.result y) →
    ∃ a : OperandWord, a.toNat = y.toNat % 2 ^ operandWidth op ∧
      step s = exec (decode (transactionWord op a))
        { s with op := op, a := a, inputsDefined := true, program := rest }

/-- The host does not use the `y` of a faulted transaction, nor a name that is no earlier result: the
step stops by name (60_exceptions.md R201; 30_encoding.md R77; the model's choice, log entry 7). -/
def Obligations.StepStopsWithoutResultValue : Prop :=
  (∀ (s : State) (op : OpCode) (k : Nat) (f : Fault) (rest : List Line),
    s.program = ⟨op, .held (k + 1)⟩ :: rest → s.log[k]? = some (.fault f) →
    step s = .fault (.useOfFaultedResult (k + 1))) ∧
  (∀ (s : State) (op : OpCode) (K : Nat) (rest : List Line),
    s.program = ⟨op, .held K⟩ :: rest → (K = 0 ∨ s.log.length < K) →
    step s = .fault (.noSuchResult K))

/-- A transaction on inputs that are not fully defined values is refused (92_eei_decisions.md D22;
93_implementation_defined.md I8). -/
def Obligations.StepRefusesUndefinedInputs : Prop :=
  ∀ s : State, s.program = [] → s.inputsDefined = false → step s = .refused .undefinedInputs

/-- A word placed as the next transaction runs as the instruction the decoder reads from it, with the
rest of the host's program waiting behind it (log entries 4 and 11). -/
def Obligations.StepRunsPlacedWord : Prop :=
  ∀ (s : State) (nbits w : Nat) (i : Instr), decodeTableWord nbits w = some i →
    step (s.withFetchWord nbits w) =
      exec i { s with op := i.op, a := i.operand, inputsDefined := true }

/-! ## Narrowing -/

/-- `cvt.bf16.f32` (40_narrowing.md R100), its pseudocode written on the bits of the operand port. -/
def Obligations.NarrowOperationResult : Prop :=
  ∀ (a : OperandWord) (s : State),
    let hi := a.extractLsb' 16 16
    let lo := a.extractLsb' 0 16
    let e := a.extractLsb' 23 8
    let f := a.extractLsb' 0 23
    exec (.cvtBf16F32 a) s = .next (s.driveResult16 (
      if e = 0xFF#8 ∧ f ≠ 0#23 then hi ||| 0x0040#16
      else if e = 0xFF#8 then hi
      else if e = 0x00#8 then (if a.getLsbD 31 then 0x8000#16 else 0x0000#16)
      else if 0x8000#16 < lo ∨ (lo = 0x8000#16 ∧ hi.getLsbD 0 = true) then hi + 0x0001#16
      else hi))

/-- Case 1, NaN input (40_narrowing.md R103): sign, exponent 0xFF, quiet bit set, payload bits 21:16
kept, with the three consequences (a), (b), (c), and no signaling NaN ever results. -/
def Obligations.NarrowNaNResult : Prop :=
  (∀ (a : OperandWord) (s : State), isNaN32 (operandF32 a) = true →
    ∃ q : BF16, exec (.cvtBf16F32 a) s = .next (s.driveResult16 q) ∧
      q = high16 (operandF32 a) ||| 0x0040#16 ∧
      q.getLsbD 15 = a.getLsbD 31 ∧ exponent16 q = 0xFF#8 ∧ q.getLsbD 6 = true ∧
      q.extractLsb' 0 6 = a.extractLsb' 16 6 ∧
      (a.getLsbD 22 = true → q = high16 (operandF32 a)) ∧
      (a.getLsbD 22 = false → q = high16 (operandF32 a) + 0x0040#16) ∧
      (0x7F800001#32 ≤ operandF32 a → operandF32 a ≤ 0x7F80FFFF#32 → q = 0x7FC0#16) ∧
      (0xFF800001#32 ≤ operandF32 a → operandF32 a ≤ 0xFF80FFFF#32 → q = 0xFFC0#16)) ∧
  (∀ x : F32, isSignaling16 (narrow x) = false ∧ (isNaN16 (narrow x) = isNaN32 x))

/-- Case 3, already-infinite input (40_narrowing.md R104). -/
def Obligations.NarrowInfinityResult : Prop :=
  ∀ (a : OperandWord) (s : State), isInfinite32 (operandF32 a) = true →
    exec (.cvtBf16F32 a) s = .next (s.driveResult16 (high16 (operandF32 a))) ∧
    (a.getLsbD 31 = false → exec (.cvtBf16F32 a) s = .next (s.driveResult16 0x7F80#16)) ∧
    (a.getLsbD 31 = true → exec (.cvtBf16F32 a) s = .next (s.driveResult16 0xFF80#16))

/-- Case 4, zero or denormal input, whatever the mantissa (40_narrowing.md R105). -/
def Obligations.NarrowFlushesZeroAndDenormal : Prop :=
  ∀ (a : OperandWord) (s : State), exponent32 (operandF32 a) = 0x00#8 →
    exec (.cvtBf16F32 a) s =
      .next (s.driveResult16 (if a.getLsbD 31 then 0x8000#16 else 0x0000#16))

/-- Case 5, normal input: round to nearest even on the bits, the carry into the exponent, and sign and
exponent otherwise copied (40_narrowing.md R106). -/
def Obligations.NarrowNormalResult : Prop :=
  ∀ (a : OperandWord) (s : State), isNormal32 (operandF32 a) = true →
    ∃ q : BF16, exec (.cvtBf16F32 a) s = .next (s.driveResult16 q) ∧
      let hi := high16 (operandF32 a)
      let lo := low16 (operandF32 a)
      (lo < 0x8000#16 → q = hi) ∧
      (lo = 0x8000#16 → hi.getLsbD 0 = false → q = hi) ∧
      (0x8000#16 < lo → q = hi + 1#16) ∧
      (lo = 0x8000#16 → hi.getLsbD 0 = true → q = hi + 1#16) ∧
      sign16 q = sign32 (operandF32 a) ∧
      (q = hi + 1#16 → mantissa16 hi = 0x7F#7 →
        mantissa16 q = 0#7 ∧ exponent16 q = exponent32 (operandF32 a) + 1#8) ∧
      ((q = hi ∨ mantissa16 hi ≠ 0x7F#7) → exponent16 q = exponent32 (operandF32 a))

/-- Case 2, magnitude overflow and its threshold (40_narrowing.md R107). -/
def Obligations.NarrowOverflowThreshold : Prop :=
  (∀ x : F32, isNormal32 x = true →
    let magnitude := x.extractLsb' 0 31
    (exponent32 x = 254#8 → mantissa16 (high16 x) = 0x7F#7 → narrow x = high16 x + 1#16 →
      isInfinite16 (narrow x) = true) ∧
    (0x7F7F8000#31 ≤ magnitude →
      narrow x = if x.getLsbD 31 then 0xFF80#16 else 0x7F80#16) ∧
    (0x7F7F0000#31 ≤ magnitude → magnitude ≤ 0x7F7F7FFF#31 →
      narrow x = if x.getLsbD 31 then 0xFF7F#16 else 0x7F7F#16) ∧
    (magnitude < 0x7F7F0000#31 → isInfinite16 (narrow x) = false)) ∧
  narrow 0x7F7FFFFF#32 = 0x7F80#16 ∧ narrow 0xFF7FFFFF#32 = 0xFF80#16 ∧
  narrow 0x7F7F0000#32 = 0x7F7F#16 ∧ widen 0x7F7F#16 = 0x7F7F0000#32 ∧
  (∃ v : ℚ, (val32 0x7F7F0000#32).real? = some v ∧ |338953139 * 10 ^ 30 - v| ≤ 2 ^ 103)

/-- No underflow after rounding: only `e = 0` flushes (40_narrowing.md R108). -/
def Obligations.NarrowNormalNeverUnderflows : Prop :=
  (∀ x : F32, exponent32 x ≠ 0x00#8 →
    isZero16 (narrow x) = false ∧ isSubnormal16 (narrow x) = false) ∧
  (∀ x : F32, exponent32 x = 0x00#8 → isZero16 (narrow x) = true)

/-- The sign is kept on every input (40_narrowing.md R109). -/
def Obligations.NarrowKeepsSign : Prop :=
  ∀ x : F32, (narrow x).getLsbD 15 = x.getLsbD 31

/-- The rounding-bias datapath gives Narrow on normals and infinities, and not on every NaN or every
input with `e = 0` (40_narrowing.md R110). -/
def Obligations.NarrowEqualsBiasDatapath : Prop :=
  let datapath : F32 → BF16 := fun x =>
    (x + 0x00007FFF#32 + (x.extractLsb' 16 1).setWidth 32).extractLsb' 16 16
  (∀ x : F32, (isNormal32 x = true ∨ isInfinite32 x = true) → narrow x = datapath x) ∧
  (∃ x : F32, isNaN32 x = true ∧ narrow x ≠ datapath x) ∧
  (∃ x : F32, exponent32 x = 0x00#8 ∧ narrow x ≠ datapath x)

/-- The value of the result is the bf16 value nearest to the input's value, and at equal distance the
one whose low mantissa bit is 0; an infinity stays that infinity (40_narrowing.md R101; values by
00_scope.md R10). Where the nearest step is the overflow, R107's statement gives it. -/
def Obligations.NarrowIsNearestTiesToEven : Prop :=
  (∀ (x : F32) (v r : ℚ), isNormal32 x = true →
    (val32 x).real? = some v → (val16 (narrow x)).real? = some r →
    ∀ (q : BF16) (u : ℚ), (val16 q).real? = some u →
      |v - r| ≤ |v - u| ∧
      (q ≠ narrow x → |v - r| = |v - u| → (narrow x).getLsbD 0 = false)) ∧
  (∀ x : F32, isNormal32 x = true → low16 x = 0x8000#16 → (narrow x).getLsbD 0 = false) ∧
  (∀ (x : F32) (v : ℚ), isNormal32 x = true → (val32 x).real? = some v →
    isInfinite16 (narrow x) = true → ∀ (q : BF16) (u : ℚ), (val16 q).real? = some u → |u| < |v|) ∧
  (∀ x : F32, isInfinite32 x = true → val16 (narrow x) = val32 x)

/-- Narrowing loses nothing exactly on the four classes of R111 (40_narrowing.md R111). -/
def Obligations.NarrowThenWidenExactness : Prop :=
  ∀ x : F32, widen (narrow x) = x ↔
    (isZero32 x = true ∨
     (isNormal32 x = true ∧ low16 x = 0#16) ∨
     isInfinite32 x = true ∨
     (isNaN32 x = true ∧ isSignaling32 x = false ∧ low16 x = 0#16))

/-- An integer's f32 pattern narrows exactly when it has at most 8 significant bits; every magnitude up
to 256 does, 257 is the first that does not, and it narrows to 256 (40_narrowing.md R112). -/
def Obligations.IntegerPatternsNarrowExactly : Prop :=
  (∀ (x : F32) (n : Int), (val32 x).real? = some (n : ℚ) →
    ((val16 (narrow x)).real? = some (n : ℚ) ↔ SignificantBitsAtMost 8 n.natAbs)) ∧
  (∀ m : Nat, m ≤ 256 → SignificantBitsAtMost 8 m) ∧
  ¬ SignificantBitsAtMost 8 257 ∧ SignificantBitsAtMost 8 258 ∧
  (∀ x : F32, (val32 x).real? = some 257 → (val16 (narrow x)).real? = some 256)

/-- Narrow of Widen on every bf16 pattern, and the signaling-NaN delta of 0x40 on the two ranges
(40_narrowing.md R113, R114; 41_widening.md R133). -/
def Obligations.NarrowOfWiden : Prop :=
  (∀ q : BF16,
    (isSignaling16 q = true → narrow (widen q) = q + 0x40#16) ∧
    (isSubnormal16 q = true → narrow (widen q) = if q.getLsbD 15 then 0x8000#16 else 0x0000#16) ∧
    (isSignaling16 q = false → isSubnormal16 q = false → narrow (widen q) = q)) ∧
  (∀ q : BF16,
    ((0x7F81#16 ≤ q ∧ q ≤ 0x7FBF#16) ∨ (0xFF81#16 ≤ q ∧ q ≤ 0xFFBF#16)) →
      narrow (widen q) = q + 0x40#16) ∧
  (∀ x : F32, isSignaling16 (narrow x) = false ∧ isSubnormal16 (narrow x) = false)

/-- Narrowing is idempotent through widening (41_widening.md R134). -/
def Obligations.NarrowIdempotentThroughWiden : Prop :=
  ∀ x : F32, narrow (widen (narrow x)) = narrow x

/-- Every result of narrowing, on the float path and the integer path, is a signed zero, a normal, an
infinity or a quiet NaN, never a subnormal pattern and never a signaling NaN (10_state.md R30). -/
def Obligations.NarrowResultClass : Prop :=
  ∀ (i : Instr) (s t : State), isReservedOp i.op = false → i.op ≠ 0x1#4 → exec i s = .next t →
    isNarrowClass (low16 t.y) = true ∧ isSubnormal16 (low16 t.y) = false ∧
    isSignaling16 (low16 t.y) = false

/-! ## Widening -/

/-- `cvt.f32.bf16` (41_widening.md R130). -/
def Obligations.WidenOperationResult : Prop :=
  ∀ (a : OperandWord) (s : State),
    exec (.cvtF32Bf16 a) s = .next (s.driveResult (a.extractLsb' 0 16 ++ 0x0000#16))

/-- Widening keeps sign, exponent and the whole mantissa, of every class alike; a signaling NaN stays
signaling and a subnormal stays a denormal (41_widening.md R131). -/
def Obligations.WidenHasNoSpecialCases : Prop :=
  ∀ q : BF16,
    sign32 (widen q) = sign16 q ∧ exponent32 (widen q) = exponent16 q ∧
    mantissa32 (widen q) = mantissa16 q ++ 0#16 ∧
    isSignaling32 (widen q) = isSignaling16 q ∧
    isNaN32 (widen q) = isNaN16 q ∧ isInfinite32 (widen q) = isInfinite16 q ∧
    isZero32 (widen q) = isZero16 q ∧ isNormal32 (widen q) = isNormal16 q ∧
    (isSubnormal16 q = true → val32 (widen q) = val16 q)

/-- Widening is exact and injective, and keeps the value of every pattern that is not a NaN
(41_widening.md R132; values by 00_scope.md R10). -/
def Obligations.WidenExactAndInjective : Prop :=
  (∀ q : BF16, high16 (widen q) = q) ∧
  (∀ q q' : BF16, widen q = widen q' → q = q') ∧
  (∀ q : BF16, isNaN16 q = false → val32 (widen q) = val16 q)

/-! ## The integer path -/

/-- The eight integer operations: Narrow of IntToF32, at their width and signedness (42_integer_path.md
R150). -/
def Obligations.IntegerOperationResults : Prop :=
  ∀ (a : OperandWord) (s : State),
    exec (.cvtBf16U8 a) s = .next (s.driveResult16 (narrow (intToF32 a 8 false))) ∧
    exec (.cvtBf16U16 a) s = .next (s.driveResult16 (narrow (intToF32 a 16 false))) ∧
    exec (.cvtBf16U32 a) s = .next (s.driveResult16 (narrow (intToF32 a 32 false))) ∧
    exec (.cvtBf16U64 a) s = .next (s.driveResult16 (narrow (intToF32 a 64 false))) ∧
    exec (.cvtBf16S8 a) s = .next (s.driveResult16 (narrow (intToF32 a 8 true))) ∧
    exec (.cvtBf16S16 a) s = .next (s.driveResult16 (narrow (intToF32 a 16 true))) ∧
    exec (.cvtBf16S32 a) s = .next (s.driveResult16 (narrow (intToF32 a 32 true))) ∧
    exec (.cvtBf16S64 a) s = .next (s.driveResult16 (narrow (intToF32 a 64 true)))

/-- Presenting the integer's f32 image to `cvt.bf16.f32` gives the same next state (42_integer_path.md
R157). -/
def Obligations.IntegerOperationsEqualFloatPath : Prop :=
  ∀ (a : OperandWord) (s : State) (u : BitVec 32),
    exec (.cvtBf16U8 a) s = exec (.cvtBf16F32 (u ++ intToF32 a 8 false)) s ∧
    exec (.cvtBf16U16 a) s = exec (.cvtBf16F32 (u ++ intToF32 a 16 false)) s ∧
    exec (.cvtBf16U32 a) s = exec (.cvtBf16F32 (u ++ intToF32 a 32 false)) s ∧
    exec (.cvtBf16U64 a) s = exec (.cvtBf16F32 (u ++ intToF32 a 64 false)) s ∧
    exec (.cvtBf16S8 a) s = exec (.cvtBf16F32 (u ++ intToF32 a 8 true)) s ∧
    exec (.cvtBf16S16 a) s = exec (.cvtBf16F32 (u ++ intToF32 a 16 true)) s ∧
    exec (.cvtBf16S32 a) s = exec (.cvtBf16F32 (u ++ intToF32 a 32 true)) s ∧
    exec (.cvtBf16S64 a) s = exec (.cvtBf16F32 (u ++ intToF32 a 64 true)) s

/-- The value of an integer operand: the unsigned number, or the two's-complement integer congruent to
it (10_state.md R32). -/
def Obligations.IntegerOperandValue : Prop :=
  ∀ (a : OperandWord) (W : Nat), W ∈ Config.intWidths →
    integerValue a W false = ((a.toNat % 2 ^ W : Nat) : Int) ∧
    (0 ≤ integerValue a W false ∧ integerValue a W false ≤ 2 ^ W - 1) ∧
    (-(2 ^ (W - 1)) ≤ integerValue a W true ∧ integerValue a W true ≤ 2 ^ (W - 1) - 1) ∧
    integerValue a W true % 2 ^ W = ((a.toNat % 2 ^ W : Nat) : Int)

/-- IntToF32 rounds to the nearest f32 value, at equal distance to the even one, and is exact up to
2^24, so at widths 8 and 16 (42_integer_path.md R152; values by 00_scope.md R10). -/
def Obligations.IntToF32IsNearestTiesToEven : Prop :=
  ∀ (a : OperandWord) (W : Nat) (sgn : Bool), W ∈ Config.intWidths →
    ∃ v : ℚ, (val32 (intToF32 a W sgn)).real? = some v ∧
      (∀ (p : F32) (u : ℚ), (val32 p).real? = some u →
        |(integerValue a W sgn : ℚ) - v| ≤ |(integerValue a W sgn : ℚ) - u| ∧
        (p ≠ intToF32 a W sgn →
          |(integerValue a W sgn : ℚ) - v| = |(integerValue a W sgn : ℚ) - u| →
          (intToF32 a W sgn).getLsbD 0 = false)) ∧
      ((integerValue a W sgn).natAbs ≤ 2 ^ 24 → v = (integerValue a W sgn : ℚ)) ∧
      (W ≤ 16 → v = (integerValue a W sgn : ℚ))

/-- The integer 0 gives +0, and no integer gives -0 (42_integer_path.md R153). -/
def Obligations.IntegerZeroGivesPositiveZero : Prop :=
  ∀ (a : OperandWord) (W : Nat) (sgn : Bool), W ∈ Config.intWidths →
    (operandInt a W = 0#W → intToF32 a W sgn = 0x00000000#32 ∧ intToBf16 a W sgn = 0x0000#16) ∧
    intToBf16 a W sgn ≠ 0x8000#16

/-- The range of the integer path: +0 or a normal with biased exponent 127 to 191 at both formats, the
sign bit set exactly for negatives, and 2^64 the largest, from the largest u64 (42_integer_path.md
R154). -/
def Obligations.IntegerPathRange : Prop :=
  (∀ (a : OperandWord) (W : Nat) (sgn : Bool), W ∈ Config.intWidths →
    (intToF32 a W sgn = 0#32 ∨
      (127#8 ≤ exponent32 (intToF32 a W sgn) ∧ exponent32 (intToF32 a W sgn) ≤ 191#8)) ∧
    (intToF32 a W sgn).extractLsb' 0 31 ≤ 0x5F800000#31 ∧
    (intToBf16 a W sgn = 0#16 ∨
      (127#8 ≤ exponent16 (intToBf16 a W sgn) ∧ exponent16 (intToBf16 a W sgn) ≤ 191#8)) ∧
    ((intToBf16 a W sgn).getLsbD 15 = true ↔ integerValue a W sgn < 0) ∧
    ((intToF32 a W sgn).getLsbD 31 = true ↔ integerValue a W sgn < 0)) ∧
  intToF32 0xFFFFFFFFFFFFFFFF#64 64 false = 0x5F800000#32 ∧
  (val32 0x5F800000#32).real? = some (2 ^ 64)

/-- Double rounding (42_integer_path.md R155): the smallest positive integer on which the path differs
from a single rounding to 8 significant bits is 16842753; u32 0x80800001 is another; at widths 8 and
16 there is none. -/
def Obligations.DoubleRoundingIsNormative : Prop :=
  (∀ m : Nat, 1 ≤ m → m < 16842753 → narrow (f32OfInt m) = singleRoundedBF16 m) ∧
  f32OfInt 16842753 = 0x4B808000#32 ∧ narrow (f32OfInt 16842753) = 0x4B80#16 ∧
  singleRoundedBF16 16842753 = 0x4B81#16 ∧
  intToF32 0x0000000080800001#64 32 false = 0x4F008000#32 ∧
  intToBf16 0x0000000080800001#64 32 false = 0x4F00#16 ∧
  singleRoundedBF16 0x80800001 = 0x4F01#16 ∧
  (∀ (a : OperandWord) (W : Nat) (sgn : Bool), W = 8 ∨ W = 16 → integerValue a W sgn ≠ 0 →
    (intToBf16 a W sgn).extractLsb' 0 15 =
      (singleRoundedBF16 (integerValue a W sgn).natAbs).extractLsb' 0 15)

/-- An integer is converted exactly if and only if its magnitude has at most 8 significant bits, which
covers every magnitude up to 256 (42_integer_path.md R156). -/
def Obligations.IntegerConversionExactness : Prop :=
  (∀ (a : OperandWord) (W : Nat) (sgn : Bool), W ∈ Config.intWidths →
    ((val16 (intToBf16 a W sgn)).real? = some (integerValue a W sgn : ℚ) ↔
      SignificantBitsAtMost 8 (integerValue a W sgn).natAbs)) ∧
  (∀ (a : OperandWord) (W : Nat) (sgn : Bool), W ∈ Config.intWidths →
    (integerValue a W sgn).natAbs ≤ 256 →
    (val16 (intToBf16 a W sgn)).real? = some (integerValue a W sgn : ℚ)) ∧
  narrow (f32OfInt 257) = 0x4380#16 ∧ narrow (f32OfInt 259) = 0x4382#16 ∧
  narrow (f32OfInt 65535) = 0x4780#16

/-! ## Ports, frames and outcomes -/

/-- The datapath of sub-blocks and the instruction meanings give the same outputs: `y` and `illegal`
are functions of `op` and `a` alone (10_state.md R34). -/
def Obligations.OutputsAreFunctionsOfInputs : Prop :=
  ∀ (op : OpCode) (a : OperandWord) (s : State),
    ∃ t : State, exec (decode (transactionWord op a)) s = .next t ∧
      outputs op a = ⟨t.illegal, t.y⟩

/-- With `op[3] = 1` the sub-block receives `i64 = a`, `w = op[1:0]` and `sgn = op[2]`, and reads only
`W` bits of it (30_encoding.md R73). -/
def Obligations.IntegerFieldDecode : Prop :=
  ∀ (op : OpCode) (a : OperandWord) (s : State), op.getLsbD 3 = true →
    exec (decode (transactionWord op a)) s =
      .next (s.driveResult16 (intToBf16ViaF32 a (op.extractLsb' 0 2) (op.extractLsb' 2 1))) ∧
    ∀ a' : OperandWord,
      a.toNat % 2 ^ (8 <<< (op.extractLsb' 0 2).toNat) =
        a'.toNat % 2 ^ (8 <<< (op.extractLsb' 0 2).toNat) →
      intToBf16ViaF32 a (op.extractLsb' 0 2) (op.extractLsb' 2 1) =
        intToBf16ViaF32 a' (op.extractLsb' 0 2) (op.extractLsb' 2 1)

/-- Two transactions with equal `op` and equal operand bits give equal outputs from any two states: the
bits above the operand are ignored and no earlier transaction matters (20_memory.md R52; 30_encoding.md
R72). -/
def Obligations.EqualOperandBitsGiveEqualOutputs : Prop :=
  ∀ (op : OpCode) (a a' : OperandWord) (s s' t t' : State),
    operandBits op a = operandBits op a' →
    exec (decode (transactionWord op a)) s = .next t →
    exec (decode (transactionWord op a')) s' = .next t' →
    t.y = t'.y ∧ t.illegal = t'.illegal

/-- How many bits each operation reads (30_encoding.md R72). -/
def Obligations.OperandWidths : Prop :=
  operandWidth 0x0#4 = 32 ∧ operandWidth 0x1#4 = 16 ∧
  operandWidth 0x8#4 = 8 ∧ operandWidth 0x9#4 = 16 ∧ operandWidth 0xA#4 = 32 ∧
  operandWidth 0xB#4 = 64 ∧ operandWidth 0xC#4 = 8 ∧ operandWidth 0xD#4 = 16 ∧
  operandWidth 0xE#4 = 32 ∧ operandWidth 0xF#4 = 64 ∧
  ∀ op : OpCode, isReservedOp op = true → operandWidth op = 0

/-- Result placement (30_encoding.md R74). -/
def Obligations.ResultPlacement : Prop :=
  ∀ (op : OpCode) (a : OperandWord) (s t : State),
    exec (decode (transactionWord op a)) s = .next t →
    (op = 0x0#4 → t.y = 0x0000#16 ++ narrow (operandF32 a) ∧ t.illegal = 0#1) ∧
    (op = 0x1#4 → t.y = widen (operandBF16 a) ∧ t.illegal = 0#1) ∧
    (op.getLsbD 3 = true →
      t.y = 0x0000#16 ++ intToBf16 a (operandWidth op) (op.getLsbD 2) ∧ t.illegal = 0#1) ∧
    (isReservedOp op = true → t.y = 0x00000000#32 ∧ t.illegal = 1#1)

/-- Every operation completes on every operand and from every state, and indicates nothing
(60_exceptions.md R200). -/
def Obligations.EveryOperationCompletes : Prop :=
  ∀ (i : Instr) (s : State), isReservedOp i.op = false →
    ∃ t : State, exec i s = .next t ∧ t.illegal = 0#1 ∧ t.log = s.log ++ [.result t.y]

/-- A reserved op value drives `illegal <- 1` and `y <- 0` whatever the operand bits; the block changes
nothing else, and the next transaction is unaffected (60_exceptions.md R201). That `exec` goes on with a
next state, and that the fault R201 asks a model to record, reservedOp of the op value, stands in
`State.log`, is the model's choice (log entry 3). -/
def Obligations.ReservedOpRaisesIllegal : Prop :=
  ∀ (i : Instr) (s : State), 0x2#4 ≤ i.op → i.op ≤ 0x7#4 →
    ∃ t : State, exec i s = .next t ∧ t.illegal = 1#1 ∧ t.y = 0x00000000#32 ∧
      t.op = s.op ∧ t.a = s.a ∧ t.inputsDefined = s.inputsDefined ∧ t.program = s.program ∧
      t.log = s.log ++ [.fault (.reservedOp i.op)] ∧
      (∀ i' : Instr, i'.op = i.op → exec i' s = .next t) ∧
      (∀ (j : Instr) (u v : State), exec j t = .next u → exec j s = .next v →
        u.y = v.y ∧ u.illegal = v.illegal)

/-- `illegal = 1` for the cause "reserved op value" and for no other transaction (60_exceptions.md
R202). -/
def Obligations.IllegalExactlyForReservedOps : Prop :=
  ∀ (T : TransactionWord) (s t : State), exec (decode T) s = .next t →
    (t.illegal = 1#1 ↔ (0x2#4 ≤ opField T ∧ opField T ≤ 0x7#4))

/-- The result of a transaction is the same whatever transaction came before it, a reserved op value
included (10_state.md R27; 60_exceptions.md R201). -/
def Obligations.EarlierTransactionLeavesNoTrace : Prop :=
  ∀ (i j : Instr) (s t u v : State),
    exec i s = .next t → exec j t = .next u → exec j s = .next v →
    u.y = v.y ∧ u.illegal = v.illegal

/-- The frame of every instruction: it writes `y` and `illegal` and the host keeps one more observation,
which is that pair; the inputs and the host's program are unchanged (10_state.md R20, R24;
70_reset_and_hazards.md R247). The block has no register and no memory to change. For a reserved op
value the observation is the recorded fault, whose place in `State.log` is the model's choice (log
entry 3). -/
def Obligations.ExecFrame : Prop :=
  ∀ (i : Instr) (s t : State), exec i s = .next t →
    t.op = s.op ∧ t.a = s.a ∧ t.inputsDefined = s.inputsDefined ∧ t.program = s.program ∧
    ∃ o : Observation, t.log = s.log ++ [o] ∧ o.pair = (t.illegal, t.y)

/-- Repeating a transaction gives the same result (20_memory.md R54). -/
def Obligations.RepeatingTransactionIsIdempotent : Prop :=
  ∀ s t u : State, s.program = [] → step s = .next t → step t = .next u →
    u.op = t.op ∧ u.a = t.a ∧ u.y = t.y ∧ u.illegal = t.illegal ∧ u.program = []

/-! ## Reset, invariant and runs -/

/-- After power-up the outputs are the functions of the inputs (70_reset_and_hazards.md R240); the
inputs' values and the empty program and log are the model's choice (log entries 2 and 4). -/
def Obligations.ResetOutputsAreFunctions : Prop :=
  outputs State.reset.op State.reset.a = ⟨State.reset.illegal, State.reset.y⟩ ∧
  State.reset.program = [] ∧ State.reset.log = []

/-- The invariant holds at reset. -/
def Obligations.ResetSatisfiesInvariant : Prop := State.reset.Inv

/-- Every step keeps the invariant: driven inputs have settled outputs, and every observation is a
result of the block's classes or the fault of a reserved op value (10_state.md R30, R34; 60_exceptions.md
R202; 70_reset_and_hazards.md R240; that the fault stands in `State.log` is the model's choice, log
entry 3). -/
def Obligations.StepKeepsInvariant : Prop :=
  ∀ s t : State, s.Inv → step s = .next t → t.Inv

/-- A run of a host program is its list of transactions in order, ends after the last one, and its
observation is the list of pairs (70_reset_and_hazards.md R247; 20_memory.md R57): each pair depends
on its own transaction only. The lists in State, and that the run goes on past a reserved op value, are
the model's choice (log entries 3 and 4). The lines have literal operands; the step of a line that
names an earlier result is StepPresentsEarlierResult. -/
def Obligations.RunObservesEachTransaction : Prop :=
  ∀ (ts : List (OpCode × OperandWord)) (s : State),
    s.program = ts.map (fun x => ⟨x.1, .lit x.2⟩) →
    ∃ t : State, run ts.length s = .next t ∧ t.program = [] ∧
      t.log = s.log ++ ts.map (fun x => observe x.1 x.2) ∧
      (t.log.drop s.log.length).map Observation.pair =
        ts.map (fun x => ((outputs x.1 x.2).illegal, (outputs x.1 x.2).y))

/-- A run is free of recorded faults exactly when no transaction presents a reserved op value
(60_exceptions.md R201, R202). That a run goes on past a reserved op value, and that the record of its
fault stands in `State.log`, is the model's choice (log entry 3). The lines have literal operands; the
step of a line that names an earlier result is StepPresentsEarlierResult. -/
def Obligations.FaultFreeRunHasNoReservedOp : Prop :=
  ∀ (ts : List (OpCode × OperandWord)) (s t : State),
    s.FaultFree → s.program = ts.map (fun x => ⟨x.1, .lit x.2⟩) →
    run ts.length s = .next t →
    (t.FaultFree ↔ ∀ x ∈ ts, isReservedOp x.1 = false)

/-- The pseudo-operations' expansions (30_encoding.md R78). -/
def Obligations.PseudoOperationExpansions : Prop :=
  ∀ (n : Nat) (x : HostOperand),
    expandSource n (.rt32 x) = .ok [⟨0x0#4, x⟩, ⟨0x1#4, .held (n + 1)⟩] ∧
    expandSource n (.rt16 x) = .ok [⟨0x1#4, x⟩, ⟨0x0#4, .held (n + 1)⟩] ∧
    expandSource n (.cvtI 8 x) = .ok [⟨0xC#4, x⟩] ∧
    expandSource n (.cvtI 16 x) = .ok [⟨0xD#4, x⟩] ∧
    expandSource n (.cvtI 32 x) = .ok [⟨0xE#4, x⟩] ∧
    expandSource n (.cvtI 64 x) = .ok [⟨0xF#4, x⟩]

/-- Running `rt32` narrows and widens back; running `rt16` widens and narrows back: two transactions,
the second on the first's result (30_encoding.md R77, R78). -/
def Obligations.RoundTripRuns : Prop :=
  ∀ (s : State) (v : OperandWord) (rest ls : List Line),
    (expandSource s.log.length (.rt32 (.lit v)) = .ok ls → s.program = ls ++ rest →
      ∃ t : State, run 2 s = .next t ∧ t.program = rest ∧ t.illegal = 0#1 ∧
        t.y = widen (narrow (operandF32 v))) ∧
    (expandSource s.log.length (.rt16 (.lit v)) = .ok ls → s.program = ls ++ rest →
      ∃ t : State, run 2 s = .next t ∧ t.program = rest ∧ t.illegal = 0#1 ∧
        t.y = 0x0000#16 ++ narrow (widen (operandBF16 v)))

/-- Integer types are converted at widths 8, 16, 32 and 64, signed or unsigned, by the op value that
has that width and signedness, and every other type is refused (00_scope.md R6). -/
def Obligations.AdmittedIntegerTypes : Prop :=
  ∀ (n : Nat) (ty : IntType) (x : HostOperand),
    (ty.admitted = true → ∃ (op : OpCode) (sgn : Bool) (W : Nat), ty = .int sgn W ∧
      expandSource n (.cvtInt ty x) = .ok [⟨op, x⟩] ∧
      op.getLsbD 3 = true ∧ op.getLsbD 2 = sgn ∧ operandWidth op = W) ∧
    (ty.admitted = false →
      expandSource n (.cvtInt ty x) = .error (.integerTypeNotAdmitted ty))

/-! ## Formats -/

/-- A float's pattern is its sign, exponent and mantissa fields, in that order, at both formats
(20_memory.md R51; 10_state.md R28, R29). -/
def Obligations.PatternsAreTheirFields : Prop :=
  (∀ p : F32, sign32 p ++ exponent32 p ++ mantissa32 p = p) ∧
  (∀ q : BF16, sign16 q ++ exponent16 q ++ mantissa16 q = q)

/-- A little-endian host that stores an f32 pattern as four bytes finds the pattern `p[31:16]` in the two
bytes at offsets 2 and 3 (20_memory.md R50; storage outside the block). -/
def Obligations.StoredPatternHoldsItsHighHalf : Prop :=
  ∀ p : F32, (storedBytes .little 4 p).drop 2 = storedBytes .little 2 (high16 p)

/-- The named constants have the values R11 gives them (00_scope.md R11; values by R10). -/
def Obligations.NamedConstantValues : Prop :=
  (val32 f32Max).real? = some ((2 - 2 ^ (-23 : ℤ)) * 2 ^ (127 : ℤ)) ∧
  (val16 bf16Max).real? = some ((2 - 2 ^ (-7 : ℤ)) * 2 ^ (127 : ℤ)) ∧
  widen bf16Max = 0x7F7F0000#32 ∧
  (val32 f32MinNormal).real? = some (2 ^ (-126 : ℤ)) ∧
  (val16 bf16MinNormal).real? = some (2 ^ (-126 : ℤ)) ∧
  (val32 f32MinDenormal).real? = some (2 ^ (-149 : ℤ)) ∧
  val32 f32Inf = .infinite false ∧ val16 bf16Inf = .infinite false ∧
  val32 f32NegInf = .infinite true ∧ val16 bf16NegInf = .infinite true ∧
  val32 f32QNaN = .nan true ∧ val16 bf16QNaN = .nan true ∧
  (val32 f32Epsilon).real? = some (2 ^ (-23 : ℤ)) ∧
  (val16 bf16Epsilon).real? = some (2 ^ (-7 : ℤ)) ∧
  (val32 bf16EpsilonF32).real? = some (2 ^ (-7 : ℤ)) ∧
  (val16 0x3F80#16).real? = some 1 ∧ (val16 0x3F81#16).real? = some (1 + 2 ^ (-7 : ℤ))
end

