-- ==== Sys2Proof/Laws/Datapath.lean ====
section
/-! SUPPORT. The operand of the integer path: which bits of `a` its value depends on, and the widths of
the code `w` (30_encoding.md R72, R73). -/

namespace Sys2Proof.Machine

@[simp] theorem widthOfCode_zero : widthOfCode 0#2 = 8 := rfl
@[simp] theorem widthOfCode_one : widthOfCode 1#2 = 16 := rfl
@[simp] theorem widthOfCode_two : widthOfCode 2#2 = 32 := rfl
@[simp] theorem widthOfCode_three : widthOfCode 3#2 = 64 := rfl

/-- The operand slice depends on the low `W` bits only. -/
theorem operandInt_congr {a b : OperandWord} {W : Nat} (h : a.toNat % 2 ^ W = b.toNat % 2 ^ W) :
    operandInt a W = operandInt b W := by
  apply BitVec.eq_of_toNat_eq
  simpa [operandInt] using h

/-- So does the integer it stands for, and the f32 it becomes. -/
theorem intToF32_congr {a b : OperandWord} {W : Nat} (sgn : Bool)
    (h : a.toNat % 2 ^ W = b.toNat % 2 ^ W) : intToF32 a W sgn = intToF32 b W sgn := by
  rw [intToF32, intToF32, integerValue, integerValue, operandInt_congr h]

/-- The sub-block's result, by its ports. -/
theorem intToBf16ViaF32_eq (a : OperandWord) (w : BitVec 2) (sgn : BitVec 1) :
    intToBf16ViaF32 a w sgn = intToBf16 a (widthOfCode w) (sgn == 1#1) := rfl

/-- The outputs for an integer op value. -/
theorem outputs_integer {op : OpCode} (h : op.getLsbD 3 = true) (a : OperandWord) :
    outputs op a = ⟨illegalFlag op,
      0x0000#16 ++ intToBf16ViaF32 a (op.extractLsb' 0 2) (op.extractLsb' 2 1)⟩ := by
  rw [outputs, if_pos h]

/-- `illegal` is the flag of the op value, whatever the operand. -/
theorem outputs_illegal (op : OpCode) (a : OperandWord) : (outputs op a).illegal = illegalFlag op := by
  unfold outputs
  split
  · rfl
  · split
    · rfl
    · split <;> rfl

end Sys2Proof.Machine
end

