-- ==== Sys2Proof/Laws/Decode.lean ====
section
/-! SUPPORT. The two fields of a transaction word (30_encoding.md R70). -/

namespace Sys2Proof

/-- Bit `i` of a word is bit `i` of its operand field, or bit `i - 64` of its op field. -/
theorem getLsbD_transactionWord (op : OpCode) (a : OperandWord) (i : Nat) :
    (transactionWord op a).getLsbD i = if i < 64 then a.getLsbD i else op.getLsbD (i - 64) :=
  BitVec.getLsbD_append (x := op) (y := a) (i := i)

@[simp] theorem opField_transactionWord (op : OpCode) (a : OperandWord) :
    opField (transactionWord op a) = op := by
  apply BitVec.eq_of_getLsbD_eq
  intro i hi
  rw [opField, BitVec.getLsbD_extractLsb', getLsbD_transactionWord]
  simp [hi]

@[simp] theorem operandField_transactionWord (op : OpCode) (a : OperandWord) :
    operandField (transactionWord op a) = a := by
  apply BitVec.eq_of_getLsbD_eq
  intro i hi
  rw [operandField, BitVec.getLsbD_extractLsb', getLsbD_transactionWord]
  simp [hi]

/-- A word is its two fields. -/
theorem transactionWord_fields (T : TransactionWord) :
    transactionWord (opField T) (operandField T) = T := by
  apply BitVec.eq_of_getLsbD_eq
  intro i hi
  rw [getLsbD_transactionWord, opField, operandField, BitVec.getLsbD_extractLsb',
    BitVec.getLsbD_extractLsb']
  by_cases h : i < 64
  · simp [h]
  · have h1 : i - 64 < 4 := by omega
    have h2 : 64 + (i - 64) = i := by omega
    simp [h, h1, h2]

/-- The decoder sees a word only through its two fields (30_encoding.md R76). -/
theorem decode_transactionWord (op : OpCode) (a : OperandWord) :
    decode (transactionWord op a) =
      if op.getLsbD 3 then decodeInteger (op.getLsbD 2) (op.extractLsb' 0 2) a
      else decodeFloat (op.extractLsb' 0 3) a := by
  simp [decode]

/-- A number below `2^68` decodes as the transaction word it is. -/
theorem decodeTableWord_of_lt {nbits w : Nat} (h : w < 2 ^ 68) :
    decodeTableWord nbits w = some (decode (BitVec.ofNat 68 w)) := by
  rw [decodeTableWord, decodeNumber, if_pos h]

/-- A wider number is rejected by name. -/
theorem decodeNumber_of_le {w : Nat} (h : 2 ^ 68 ≤ w) :
    decodeNumber w = .error .widerThanTransaction := by
  rw [decodeNumber, if_neg (Nat.not_lt.mpr h)]

end Sys2Proof
end

