-- ==== Sys2Proof/Laws/State.lean ====
section
/-! SUPPORT. One lemma per field per update of State, each true by rfl. -/

namespace Sys2Proof.Machine

@[simp] theorem State.driveResult_op (v : BitVec 32) (s : State) :
    (s.driveResult v).op = s.op := rfl

@[simp] theorem State.driveResult_a (v : BitVec 32) (s : State) :
    (s.driveResult v).a = s.a := rfl

@[simp] theorem State.driveResult_inputsDefined (v : BitVec 32) (s : State) :
    (s.driveResult v).inputsDefined = s.inputsDefined := rfl

@[simp] theorem State.driveResult_y (v : BitVec 32) (s : State) :
    (s.driveResult v).y = v := rfl

@[simp] theorem State.driveResult_illegal (v : BitVec 32) (s : State) :
    (s.driveResult v).illegal = 0#1 := rfl

@[simp] theorem State.driveResult_program (v : BitVec 32) (s : State) :
    (s.driveResult v).program = s.program := rfl

@[simp] theorem State.driveResult_log (v : BitVec 32) (s : State) :
    (s.driveResult v).log = s.log ++ [.result v] := rfl

@[simp] theorem State.driveResult16_op (v : BitVec 16) (s : State) :
    (s.driveResult16 v).op = s.op := rfl

@[simp] theorem State.driveResult16_a (v : BitVec 16) (s : State) :
    (s.driveResult16 v).a = s.a := rfl

@[simp] theorem State.driveResult16_inputsDefined (v : BitVec 16) (s : State) :
    (s.driveResult16 v).inputsDefined = s.inputsDefined := rfl

@[simp] theorem State.driveResult16_y (v : BitVec 16) (s : State) :
    (s.driveResult16 v).y = 0x0000#16 ++ v := rfl

@[simp] theorem State.driveResult16_illegal (v : BitVec 16) (s : State) :
    (s.driveResult16 v).illegal = 0#1 := rfl

@[simp] theorem State.driveResult16_program (v : BitVec 16) (s : State) :
    (s.driveResult16 v).program = s.program := rfl

@[simp] theorem State.driveResult16_log (v : BitVec 16) (s : State) :
    (s.driveResult16 v).log = s.log ++ [.result (0x0000#16 ++ v)] := rfl

@[simp] theorem State.raiseIllegal_op (op : OpCode) (s : State) :
    (s.raiseIllegal op).op = s.op := rfl

@[simp] theorem State.raiseIllegal_a (op : OpCode) (s : State) :
    (s.raiseIllegal op).a = s.a := rfl

@[simp] theorem State.raiseIllegal_inputsDefined (op : OpCode) (s : State) :
    (s.raiseIllegal op).inputsDefined = s.inputsDefined := rfl

@[simp] theorem State.raiseIllegal_y (op : OpCode) (s : State) :
    (s.raiseIllegal op).y = 0x00000000#32 := rfl

@[simp] theorem State.raiseIllegal_illegal (op : OpCode) (s : State) :
    (s.raiseIllegal op).illegal = 1#1 := rfl

@[simp] theorem State.raiseIllegal_program (op : OpCode) (s : State) :
    (s.raiseIllegal op).program = s.program := rfl

@[simp] theorem State.raiseIllegal_log (op : OpCode) (s : State) :
    (s.raiseIllegal op).log = s.log ++ [.fault (.reservedOp op)] := rfl

@[simp] theorem State.driveInputs_op (op : OpCode) (a : OperandWord) (s : State) :
    (s.driveInputs op a).op = op := rfl

@[simp] theorem State.driveInputs_a (op : OpCode) (a : OperandWord) (s : State) :
    (s.driveInputs op a).a = a := rfl

@[simp] theorem State.driveInputs_inputsDefined (op : OpCode) (a : OperandWord) (s : State) :
    (s.driveInputs op a).inputsDefined = true := rfl

@[simp] theorem State.driveInputs_y (op : OpCode) (a : OperandWord) (s : State) :
    (s.driveInputs op a).y = s.y := rfl

@[simp] theorem State.driveInputs_illegal (op : OpCode) (a : OperandWord) (s : State) :
    (s.driveInputs op a).illegal = s.illegal := rfl

@[simp] theorem State.driveInputs_program (op : OpCode) (a : OperandWord) (s : State) :
    (s.driveInputs op a).program = s.program := rfl

@[simp] theorem State.driveInputs_log (op : OpCode) (a : OperandWord) (s : State) :
    (s.driveInputs op a).log = s.log := rfl

@[simp] theorem State.releaseInputs_op (s : State) :
    (s.releaseInputs).op = s.op := rfl

@[simp] theorem State.releaseInputs_a (s : State) :
    (s.releaseInputs).a = s.a := rfl

@[simp] theorem State.releaseInputs_inputsDefined (s : State) :
    (s.releaseInputs).inputsDefined = false := rfl

@[simp] theorem State.releaseInputs_y (s : State) :
    (s.releaseInputs).y = s.y := rfl

@[simp] theorem State.releaseInputs_illegal (s : State) :
    (s.releaseInputs).illegal = s.illegal := rfl

@[simp] theorem State.releaseInputs_program (s : State) :
    (s.releaseInputs).program = s.program := rfl

@[simp] theorem State.releaseInputs_log (s : State) :
    (s.releaseInputs).log = s.log := rfl

@[simp] theorem State.queueWord_op (T : TransactionWord) (s : State) :
    (s.queueWord T).op = s.op := rfl

@[simp] theorem State.queueWord_a (T : TransactionWord) (s : State) :
    (s.queueWord T).a = s.a := rfl

@[simp] theorem State.queueWord_inputsDefined (T : TransactionWord) (s : State) :
    (s.queueWord T).inputsDefined = s.inputsDefined := rfl

@[simp] theorem State.queueWord_y (T : TransactionWord) (s : State) :
    (s.queueWord T).y = s.y := rfl

@[simp] theorem State.queueWord_illegal (T : TransactionWord) (s : State) :
    (s.queueWord T).illegal = s.illegal := rfl

@[simp] theorem State.queueWord_program (T : TransactionWord) (s : State) :
    (s.queueWord T).program = lineOfWord T :: s.program := rfl

@[simp] theorem State.queueWord_log (T : TransactionWord) (s : State) :
    (s.queueWord T).log = s.log := rfl

@[simp] theorem State.withFetchWord_eq (s : State) (nbits w : Nat) :
    s.withFetchWord nbits w = s.queueWord (BitVec.ofNat 68 w) := rfl

@[simp] theorem State.presented_eq (s : State) : s.presented = transactionWord s.op s.a := rfl

end Sys2Proof.Machine
end

