-- ==== Sys2Proof/Laws/Exec.lean ====
section
/-! SUPPORT. What a meaning, a presentation and a step can do, said once each. -/

namespace Sys2Proof.Machine

/-- Every meaning answers a next state: it drives a result, or raises the indication for its own
reserved op value. -/
theorem exec_cases (i : Instr) (s : State) :
    (isReservedOp i.op = false ∧ ∃ v, exec i s = .next (s.driveResult v)) ∨
    (isReservedOp i.op = true ∧ exec i s = .next (s.raiseIllegal i.op)) := by
  cases i
  case reserved2 | reserved3 | reserved4 | reserved5 | reserved6 | reserved7 =>
    exact .inr ⟨rfl, rfl⟩
  all_goals exact .inl ⟨rfl, _, rfl⟩

/-- Presenting the next transaction: the inputs are held, or a line is driven on them; it stops only on
undefined inputs or on a line without an operand value. -/
theorem presentNext_cases (s : State) :
    (s.program = [] ∧ s.inputsDefined = true ∧ presentNext s = .next s) ∨
    (s.program = [] ∧ s.inputsDefined = false ∧ presentNext s = .refused .undefinedInputs) ∨
    (∃ l rest a, s.program = l :: rest ∧ lineOperand s.log l = .ok a ∧
      presentNext s = .next ({ s with program := rest }.driveInputs l.op a)) ∨
    (∃ l rest f, s.program = l :: rest ∧ lineOperand s.log l = .error f ∧
      presentNext s = .fault f) := by
  unfold presentNext
  cases hp : s.program with
  | nil => cases hd : s.inputsDefined <;> simp
  | cons l rest => cases ho : lineOperand s.log l <;> simp [ho]

/-- A step that answers a next state presented a transaction on defined inputs and ran it. -/
theorem step_next {s t : State} (h : step s = .next t) :
    ∃ p, presentNext s = .next p ∧ p.inputsDefined = true ∧ exec (decode p.presented) p = .next t := by
  unfold step at h
  obtain ⟨-, hd, hp⟩ | ⟨-, -, hp⟩ | ⟨l, rest, a, -, -, hp⟩ | ⟨l, rest, f, -, -, hp⟩ :=
    presentNext_cases s <;> rw [hp] at h
  · exact ⟨s, hp, hd, h⟩
  · cases h
  · exact ⟨_, hp, rfl, h⟩
  · cases h

/-- A run goes on from the state its first step answers. -/
theorem run_of_next {k : Nat} {s t : State} (h : step s = .next t) : run (k + 1) s = run k t := by
  rw [run, h]

/-- A run that stops at its first step answers what that step answers. -/
theorem run_of_fault {k : Nat} {s : State} {f : Fault} (h : step s = .fault f) :
    run (k + 1) s = .fault f := by
  rw [run, h]

/-- One step of any machine's run, from its step's answer. -/
theorem host_run_succ (M : Host.Core) (k : Nat) (s : M.State) :
    M.run (k + 1) s =
      match M.step s with
      | .next t => M.run k t
      | .fault f => .fault f
      | .refused r => .refused r := by
  cases h : M.step s <;> simp only [Host.Core.run, h]

/-- The host interface's run of the machine is `run`. -/
theorem core_run_eq (k : Nat) (s : State) : Host.Core.run Sys2Proof.core k s = run k s := by
  induction k generalizing s with
  | zero => rfl
  | succ k ih =>
    refine (host_run_succ Sys2Proof.core k s).trans ?_
    rw [run]
    have hs : Sys2Proof.core.step s = step s := rfl
    rw [hs]
    cases step s with
    | next t => exact ih t
    | fault f => rfl
    | refused r => rfl

end Sys2Proof.Machine
end

