-- ==== Sys2Proof/Laws/Integer.lean ====
section
/-! SUPPORT. The integer-to-f32 step in pieces: the logarithm, the rounding shift, the significand
(42_integer_path.md R151). -/

namespace Sys2Proof.Machine

/-- `floor_log2(m)` is the largest e with `2^e <= m` (00_scope.md R9). -/
theorem floorLog2_bounds {m : Nat} (h : 1 ≤ m) :
    2 ^ floorLog2 m ≤ m ∧ m < 2 ^ (floorLog2 m + 1) :=
  ⟨Nat.log2_self_le (by omega), Nat.lt_log2_self⟩

/-- The rounding shift gives the quotient or one more. -/
theorem roundShift_quotient (m sh : Nat) :
    roundShift m sh = m / 2 ^ sh ∨ roundShift m sh = m / 2 ^ sh + 1 := by
  unfold roundShift
  simp only [Nat.shiftRight_eq_div_pow]
  split
  · exact .inr rfl
  · exact .inl rfl

/-- The rounding shift is nearest: the error is at most half of the last place kept. -/
theorem roundShift_nearest (m : Nat) {sh : Nat} (h : 1 ≤ sh) :
    m ≤ roundShift m sh * 2 ^ sh + 2 ^ (sh - 1) ∧ roundShift m sh * 2 ^ sh ≤ m + 2 ^ (sh - 1) := by
  have hp : 2 ^ sh = 2 ^ (sh - 1) + 2 ^ (sh - 1) := by
    obtain ⟨k, rfl⟩ : ∃ k, sh = k + 1 := ⟨sh - 1, by omega⟩
    simp [pow_succ]; omega
  have hm := Nat.div_add_mod' m (2 ^ sh)
  have hr := Nat.mod_lt m (pow_pos (by decide : 0 < 2) sh)
  unfold roundShift
  simp only [Nat.shiftRight_eq_div_pow]
  split
  · next hc => rw [Nat.add_mul, Nat.one_mul]; omega
  · next hc => omega

/-- The significand has 24 bits with the top one set: the f32 is normal. -/
theorem roundSignificand_normal {m : Nat} (h : 1 ≤ m) :
    2 ^ 23 ≤ (roundSignificand m).2 ∧ (roundSignificand m).2 < 2 ^ 24 := by
  obtain ⟨hlo, hhi⟩ := floorLog2_bounds h
  unfold roundSignificand
  by_cases he : floorLog2 m ≤ 23
  · simp only [he, if_true, Nat.shiftLeft_eq]
    have h1 : 2 ^ floorLog2 m * 2 ^ (23 - floorLog2 m) = 2 ^ 23 := by
      rw [← pow_add]; congr 1; omega
    have h2 : 2 ^ (floorLog2 m + 1) * 2 ^ (23 - floorLog2 m) = 2 ^ 24 := by
      rw [← pow_add]; congr 1; omega
    have hp : 0 < 2 ^ (23 - floorLog2 m) := pow_pos (by decide) _
    exact ⟨h1 ▸ Nat.mul_le_mul_right _ hlo, h2 ▸ Nat.mul_lt_mul_of_pos_right hhi hp⟩
  · simp only [he, if_false]
    have hq1 : 2 ^ 23 ≤ m / 2 ^ (floorLog2 m - 23) := by
      rw [Nat.le_div_iff_mul_le (pow_pos (by decide) _), ← pow_add]
      convert hlo using 2; omega
    have hq2 : m / 2 ^ (floorLog2 m - 23) < 2 ^ 24 := by
      rw [Nat.div_lt_iff_lt_mul (pow_pos (by decide) _), ← pow_add]
      convert hhi using 2; omega
    have hr := roundShift_quotient m (floorLog2 m - 23)
    split
    · exact ⟨le_refl _, by norm_num⟩
    · next hne => constructor <;> dsimp only <;> omega

end Sys2Proof.Machine
end

