-- ==== Sys2Proof/Laws/Narrowing.lean ====
section
/-! SUPPORT. Narrow by cases, one lemma a case, so that callers do not unfold it (40_narrowing.md R103
to R106). -/

namespace Sys2Proof.Machine

theorem narrow_of_isNaN32 {x : F32} (h : isNaN32 x = true) : narrow x = high16 x ||| 0x0040#16 := by
  simp only [isNaN32, Bool.and_eq_true, beq_iff_eq, bne_iff_ne] at h
  simp [narrow, h]

theorem narrow_of_isInfinite32 {x : F32} (h : isInfinite32 x = true) : narrow x = high16 x := by
  simp only [isInfinite32, Bool.and_eq_true, beq_iff_eq] at h
  simp [narrow, h]

theorem narrow_of_exponent_zero {x : F32} (h : exponent32 x = 0x00#8) :
    narrow x = sign32 x ++ 0#15 := by
  simp [narrow, h]

theorem narrow_of_isNormal32 {x : F32} (h : isNormal32 x = true) :
    narrow x = high16 x + (if narrowRoundsUp x then 0x0001#16 else 0x0000#16) := by
  simp only [isNormal32, Bool.and_eq_true, bne_iff_ne] at h
  simp [narrow, h]

/-- Every pattern is a NaN, an infinity, of exponent 0, or normal: Narrow's four cases. -/
theorem narrow_classes (x : F32) :
    isNaN32 x = true ∨ isInfinite32 x = true ∨ exponent32 x = 0x00#8 ∨ isNormal32 x = true := by
  by_cases h1 : exponent32 x = 0xFF#8
  · by_cases h2 : mantissa32 x = 0#23 <;> simp [isNaN32, isInfinite32, h1, h2]
  · by_cases h0 : exponent32 x = 0x00#8 <;> simp [isNormal32, h0, h1]

end Sys2Proof.Machine
end

