-- ==== Sys2Proof/Laws/PerInstr.lean ====
section
/-! SUPPORT. A family of statements about every instruction as syntax: the encoder puts its op value and
its operand field in the places R70 gives them, and it is well formed. -/

namespace Sys2Proof.Laws.EncodedFields

/-- The fields of an instruction's word are its op value and its operand (30_encoding.md R70, R71). -/
def Statement (i : Instr) : Prop :=
  opField (encode i) = i.op ∧ operandField (encode i) = i.operand ∧ i.wf = true

theorem cvtBf16F32 (a : OperandWord) : Statement (.cvtBf16F32 a) :=
  ⟨opField_transactionWord _ _, operandField_transactionWord _ _, rfl⟩

theorem cvtF32Bf16 (a : OperandWord) : Statement (.cvtF32Bf16 a) :=
  ⟨opField_transactionWord _ _, operandField_transactionWord _ _, rfl⟩

theorem reserved2 (a : OperandWord) : Statement (.reserved2 a) :=
  ⟨opField_transactionWord _ _, operandField_transactionWord _ _, rfl⟩

theorem reserved3 (a : OperandWord) : Statement (.reserved3 a) :=
  ⟨opField_transactionWord _ _, operandField_transactionWord _ _, rfl⟩

theorem reserved4 (a : OperandWord) : Statement (.reserved4 a) :=
  ⟨opField_transactionWord _ _, operandField_transactionWord _ _, rfl⟩

theorem reserved5 (a : OperandWord) : Statement (.reserved5 a) :=
  ⟨opField_transactionWord _ _, operandField_transactionWord _ _, rfl⟩

theorem reserved6 (a : OperandWord) : Statement (.reserved6 a) :=
  ⟨opField_transactionWord _ _, operandField_transactionWord _ _, rfl⟩

theorem reserved7 (a : OperandWord) : Statement (.reserved7 a) :=
  ⟨opField_transactionWord _ _, operandField_transactionWord _ _, rfl⟩

theorem cvtBf16U8 (a : OperandWord) : Statement (.cvtBf16U8 a) :=
  ⟨opField_transactionWord _ _, operandField_transactionWord _ _, rfl⟩

theorem cvtBf16U16 (a : OperandWord) : Statement (.cvtBf16U16 a) :=
  ⟨opField_transactionWord _ _, operandField_transactionWord _ _, rfl⟩

theorem cvtBf16U32 (a : OperandWord) : Statement (.cvtBf16U32 a) :=
  ⟨opField_transactionWord _ _, operandField_transactionWord _ _, rfl⟩

theorem cvtBf16U64 (a : OperandWord) : Statement (.cvtBf16U64 a) :=
  ⟨opField_transactionWord _ _, operandField_transactionWord _ _, rfl⟩

theorem cvtBf16S8 (a : OperandWord) : Statement (.cvtBf16S8 a) :=
  ⟨opField_transactionWord _ _, operandField_transactionWord _ _, rfl⟩

theorem cvtBf16S16 (a : OperandWord) : Statement (.cvtBf16S16 a) :=
  ⟨opField_transactionWord _ _, operandField_transactionWord _ _, rfl⟩

theorem cvtBf16S32 (a : OperandWord) : Statement (.cvtBf16S32 a) :=
  ⟨opField_transactionWord _ _, operandField_transactionWord _ _, rfl⟩

theorem cvtBf16S64 (a : OperandWord) : Statement (.cvtBf16S64 a) :=
  ⟨opField_transactionWord _ _, operandField_transactionWord _ _, rfl⟩

end Sys2Proof.Laws.EncodedFields
end

