-- ==== Sys2Proof/Laws/Value.lean ====
section
/-! SUPPORT. Every finite value of both formats is a whole number of units of 2^-149, the smallest f32
denormal: a form of R10's values that arithmetic on Nat can compare (00_scope.md R10, R11). -/

namespace Sys2Proof.Machine

/-- The magnitude of fields `e < 255`, `f` with a mantissa of `k <= 23` bits, in units of 2^-149. -/
def fieldUnits (k e f : Nat) : Nat :=
  if e = 0 then f * 2 ^ (23 - k) else (2 ^ k + f) * 2 ^ (23 - k) * 2 ^ (e - 1)

/-- R10's magnitude is that many units. -/
theorem fieldsValue_units {k e f : Nat} (s : Bool) (hk : k ≤ 23) (he : e < 255) :
    fieldsValue k s e f = .finite s ((fieldUnits k e f : ℚ) * (2 : ℚ) ^ (-149 : ℤ)) := by
  obtain ⟨j, hj⟩ : ∃ j, 23 = j + k := ⟨23 - k, by omega⟩
  have hj' : 23 - k = j := by omega
  have h23 : (2 : ℚ) ^ 23 = 2 ^ j * 2 ^ k := by rw [hj, pow_add]
  have hpos : (2 : ℚ) ^ k ≠ 0 := pow_ne_zero _ (by norm_num)
  have h149 : (2 : ℚ) ^ (-126 : ℤ) = 2 ^ (-149 : ℤ) * (2 ^ j * 2 ^ k) := by
    rw [← h23]; norm_num
  unfold fieldsValue fieldUnits
  rw [if_neg (by omega), hj']
  by_cases h0 : e = 0
  · rw [if_pos h0, if_pos h0, h149]
    congr 1
    push_cast
    field_simp
  · obtain ⟨d, rfl⟩ : ∃ d, e = d + 1 := ⟨e - 1, by omega⟩
    rw [if_neg h0, if_neg h0, show ((d + 1 : ℕ) : ℤ) - 127 = (d : ℤ) + (-126) by push_cast; ring,
      zpow_add₀ (by norm_num : (2 : ℚ) ≠ 0), zpow_natCast, h149]
    congr 1
    push_cast
    field_simp

end Sys2Proof.Machine
end

