-- ==== Sys2Proof/Tests/Slice0.lean ====
section
/-! SUPPORT. The model's own tests. Expected values come from spec/95_test_vectors.md (named in each
comment) and from the examples of the rules, never from the model. -/

namespace Sys2Proof.Tests

open Sys2Proof Sys2Proof.Machine

/-- The ports after the word is presented as the first transaction after reset. -/
def ports (w : Nat) : Option (BitVec 1 × BitVec 32) :=
  match step (State.reset.withFetchWord 72 w) with
  | .next t => some (t.illegal, t.y)
  | .fault _ => none
  | .refused _ => none

/-- A state whose host waits with these lines and holds these observations. -/
def waiting (program : List Line) (log : List Observation) : State :=
  { State.reset with program := program, log := log }

/-! ## Decoding: words written out from 30_encoding.md R70, R71 (op in bits 67:64, a in bits 63:0) -/

/-- op = 0000. -/
theorem test_decode_cvtBf16F32 :
    decode (0b0000#4 ++ 0xFFFFFFFF3F800000#64) = .cvtBf16F32 0xFFFFFFFF3F800000#64 := by decide

/-- op = 0001. -/
theorem test_decode_cvtF32Bf16 :
    decode (0b0001#4 ++ 0xABCDEF0123453F80#64) = .cvtF32Bf16 0xABCDEF0123453F80#64 := by decide

/-- op = 0010. -/
theorem test_decode_reserved2 :
    decode (0b0010#4 ++ 0x000000003F800000#64) = .reserved2 0x000000003F800000#64 := by decide

/-- op = 0011. -/
theorem test_decode_reserved3 :
    decode (0b0011#4 ++ 0x000000003F800000#64) = .reserved3 0x000000003F800000#64 := by decide

/-- op = 0100. -/
theorem test_decode_reserved4 :
    decode (0b0100#4 ++ 0x000000003F800000#64) = .reserved4 0x000000003F800000#64 := by decide

/-- op = 0101. -/
theorem test_decode_reserved5 :
    decode (0b0101#4 ++ 0x000000003F800000#64) = .reserved5 0x000000003F800000#64 := by decide

/-- op = 0110. -/
theorem test_decode_reserved6 :
    decode (0b0110#4 ++ 0x000000003F800000#64) = .reserved6 0x000000003F800000#64 := by decide

/-- op = 0111. -/
theorem test_decode_reserved7 :
    decode (0b0111#4 ++ 0x000000003F800000#64) = .reserved7 0x000000003F800000#64 := by decide

/-- op = 1000. -/
theorem test_decode_cvtBf16U8 :
    decode (0b1000#4 ++ 0x0000000000000002#64) = .cvtBf16U8 0x0000000000000002#64 := by decide

/-- op = 1001. -/
theorem test_decode_cvtBf16U16 :
    decode (0b1001#4 ++ 0x000000000000FFFF#64) = .cvtBf16U16 0x000000000000FFFF#64 := by decide

/-- op = 1010. -/
theorem test_decode_cvtBf16U32 :
    decode (0b1010#4 ++ 0x0000000001010001#64) = .cvtBf16U32 0x0000000001010001#64 := by decide

/-- op = 1011. -/
theorem test_decode_cvtBf16U64 :
    decode (0b1011#4 ++ 0xFFFFFFFFFFFFFFFF#64) = .cvtBf16U64 0xFFFFFFFFFFFFFFFF#64 := by decide

/-- op = 1100. -/
theorem test_decode_cvtBf16S8 :
    decode (0b1100#4 ++ 0x12345678ABCDEFFF#64) = .cvtBf16S8 0x12345678ABCDEFFF#64 := by decide

/-- op = 1101. -/
theorem test_decode_cvtBf16S16 :
    decode (0b1101#4 ++ 0x000000000000FEFF#64) = .cvtBf16S16 0x000000000000FEFF#64 := by decide

/-- op = 1110. -/
theorem test_decode_cvtBf16S32 :
    decode (0b1110#4 ++ 0x00000000FEFEFFFF#64) = .cvtBf16S32 0x00000000FEFEFFFF#64 := by decide

/-- op = 1111. -/
theorem test_decode_cvtBf16S64 :
    decode (0b1111#4 ++ 0xFFFFFFFFFFFFFF00#64) = .cvtBf16S64 0xFFFFFFFFFFFFFF00#64 := by decide

/-- A number with a bit above bit 67 is no transaction (R70). -/
theorem test_decode_rejects_wider_word :
    decodeNumber 0x100000000000000000 = .error .widerThanTransaction := by decide

theorem test_decodeTableWord_first_and_last_row :
    decodeTableWord 72 0x00000000000000000 = some (.cvtBf16F32 0#64) ∧
    decodeTableWord 72 0xF0000000000000000 = some (.cvtBf16S64 0#64) := by decide

/-! ## Results, one step from reset (95_test_vectors.md section 2) -/

/-- N6. -/
theorem test_narrow_tie_odd_rounds_up : ports 0x0000000003F818000 = some (0#1, 0x00003F82#32) := by decide

/-- 2.1, last line. -/
theorem test_narrow_upper_bits_ignored : ports 0x0FFFFFFFF3F800000 = some (0#1, 0x00003F80#32) := by decide

/-- W6. -/
theorem test_widen_subnormal_not_flushed : ports 0x10000000000000001 = some (0#1, 0x00010000#32) := by decide

/-- 2.2, last line. -/
theorem test_widen_upper_bits_ignored : ports 0x1ABCDEF0123453F80 = some (0#1, 0x3F800000#32) := by decide

/-- I3. -/
theorem test_u8_largest : ports 0x800000000000000FF = some (0#1, 0x0000437F#32) := by decide

/-- I1. -/
theorem test_u8_zero : ports 0x80000000000000000 = some (0#1, 0x00000000#32) := by decide

/-- I9. -/
theorem test_u16_tie_to_even : ports 0x90000000000000101 = some (0#1, 0x00004380#32) := by decide

/-- I13. -/
theorem test_u16_carry : ports 0x9000000000000FFFF = some (0#1, 0x00004780#32) := by decide

/-- I22. -/
theorem test_u32_double_rounding : ports 0xA0000000001010001 = some (0#1, 0x00004B80#32) := by decide

/-- I24. -/
theorem test_u32_largest : ports 0xA00000000FFFFFFFF = some (0#1, 0x00004F80#32) := by decide

/-- I29. -/
theorem test_u64_largest : ports 0xBFFFFFFFFFFFFFFFF = some (0#1, 0x00005F80#32) := by decide

/-- I31. -/
theorem test_u64_double_rounding : ports 0xB0000000001010001 = some (0#1, 0x00004B80#32) := by decide

/-- I4. -/
theorem test_s8_smallest : ports 0xC0000000000000080 = some (0#1, 0x0000C300#32) := by decide

/-- 2.3, last line. -/
theorem test_s8_upper_bits_ignored : ports 0xC12345678ABCDEFFF = some (0#1, 0x0000BF80#32) := by decide

/-- I14. -/
theorem test_s16_smallest : ports 0xD0000000000008000 = some (0#1, 0x0000C700#32) := by decide

/-- I17. -/
theorem test_s16_tie_to_even : ports 0xD000000000000FEFF = some (0#1, 0x0000C380#32) := by decide

/-- I27. -/
theorem test_s32_double_rounding : ports 0xE00000000FEFEFFFF = some (0#1, 0x0000CB80#32) := by decide

/-- I26. -/
theorem test_s32_largest : ports 0xE000000007FFFFFFF = some (0#1, 0x00004F00#32) := by decide

/-- I32. -/
theorem test_s64_smallest : ports 0xF8000000000000000 = some (0#1, 0x0000DF00#32) := by decide

/-- I34. -/
theorem test_s64_minus_256 : ports 0xFFFFFFFFFFFFFFF00 = some (0#1, 0x0000C380#32) := by decide

/-- X1. -/
theorem test_reserved_2 : ports 0x2000000003F800000 = some (1#1, 0x00000000#32) := by decide

/-- X2. -/
theorem test_reserved_3 : ports 0x3000000003F800000 = some (1#1, 0x00000000#32) := by decide

/-- X3. -/
theorem test_reserved_4 : ports 0x4000000003F800000 = some (1#1, 0x00000000#32) := by decide

/-- X4. -/
theorem test_reserved_5 : ports 0x5000000003F800000 = some (1#1, 0x00000000#32) := by decide

/-- X5. -/
theorem test_reserved_6 : ports 0x6000000003F800000 = some (1#1, 0x00000000#32) := by decide

/-- X6. -/
theorem test_reserved_7 : ports 0x7000000003F800000 = some (1#1, 0x00000000#32) := by decide

/-! ## Narrow, Widen and IntToF32 on the corners (95_test_vectors.md) -/

/-- N8, N13, N14, N17, N18, N20: carries and the overflow boundary. -/
theorem test_narrow_carry_and_overflow :
    narrow 0x3FFF8000#32 = 0x4000#16 ∧ narrow 0x0080FFFF#32 = 0x0081#16 ∧
    narrow 0x00FF8000#32 = 0x0100#16 ∧ narrow 0x7F7F8000#32 = 0x7F80#16 ∧
    narrow 0x7F7FFFFF#32 = 0x7F80#16 ∧ narrow 0xFF7F7FFF#32 = 0xFF7F#16 := by decide

/-- N21, N22, N26, N29, N31, N32, N33 and 1.5: infinities, flushes and NaNs. -/
theorem test_narrow_special_cases :
    narrow 0x7F800000#32 = 0x7F80#16 ∧ narrow 0xFF800000#32 = 0xFF80#16 ∧
    narrow 0x807FFFFF#32 = 0x8000#16 ∧ narrow 0x007F8000#32 = 0x0000#16 ∧
    narrow 0x7FFFFFFF#32 = 0x7FFF#16 ∧ narrow 0x7F800001#32 = 0x7FC0#16 ∧
    narrow 0xFF80FFFF#32 = 0xFFC0#16 ∧ narrow 0x7FBF0000#32 = 0x7FFF#16 := by decide

/-- W2, W9, W11, W13. -/
theorem test_widen_classes :
    widen 0x8000#16 = 0x80000000#32 ∧ widen 0x7F80#16 = 0x7F800000#32 ∧
    widen 0x7F81#16 = 0x7F810000#32 ∧ widen 0xFFFF#16 = 0xFFFF0000#32 := by decide

/-- f32_mid of I13, I21, I23, I29, I32. -/
theorem test_f32_mid :
    intToF32 0xFFFF#64 16 false = 0x477FFF00#32 ∧
    intToF32 0x01000001#64 32 false = 0x4B800000#32 ∧
    intToF32 0x80800001#64 32 false = 0x4F008000#32 ∧
    intToF32 0xFFFFFFFFFFFFFFFF#64 64 false = 0x5F800000#32 ∧
    intToF32 0x8000000000000000#64 64 true = 0xDF000000#32 := by decide

/-- The single rounding that R155 contrasts. -/
theorem test_single_rounding : singleRoundedBF16 16842753 = 0x4B81#16 := by decide

/-- The informative example of 20_memory.md R50, on 0x3F801234. -/
theorem test_little_endian_store :
    storedBytes .little 4 0x3F801234#32 = [0x34#8, 0x12#8, 0x80#8, 0x3F#8] ∧
    storedBytes .big 2 0x3F80#16 = [0x3F#8, 0x80#8] := by decide

/-! ## The host's side -/

/-- P1, step 2: `r2 = cvt.f32.bf16 r1` with r1 = 0x00003FC0. -/
theorem test_held_result_is_presented :
    (match step (waiting [⟨0x1#4, .held 1⟩] [.result 0x00003FC0#32]) with
      | .next t => (t.a, t.y)
      | _ => (0#64, 0#32)) = (0x0000000000003FC0#64, 0x3FC00000#32) := by decide

/-- P5: the fault recorded for op 0x5 has no value that a later line could use (R201). -/
theorem test_faulted_result_is_not_used :
    (match step (waiting [⟨0x0#4, .held 1⟩] [.fault (.reservedOp 0x5#4)]) with
      | .fault f => some f
      | _ => none) = some (.useOfFaultedResult 1) := by decide

/-- Undefined inputs are refused (92_eei_decisions.md D22). -/
theorem test_undefined_inputs_are_refused :
    (match step State.reset.releaseInputs with
      | .refused r => some r
      | _ => none) = some .undefinedInputs := by decide

/-- P1 whole: the host's three lines, with the observations of its table. -/
theorem test_program_P1 :
    (match run 3 (waiting [⟨0x0#4, .lit 0x3FC00001#64⟩, ⟨0x1#4, .held 1⟩, ⟨0x0#4, .held 2⟩] []) with
      | .next t => t.log.map Observation.pair
      | _ => []) =
      [(0#1, 0x00003FC0#32), (0#1, 0x3FC00000#32), (0#1, 0x00003FC0#32)] := by decide

/-! ## Well-formedness smoke: an ill-formed term for each check, refused -/

/-- A literal wider than its operand (R77). -/
theorem test_wf_refuses_wide_literal : Line.wf 0 ⟨0x8#4, .lit 0x100#64⟩ = false := by decide

/-- A literal of the operand's width, at its largest. -/
theorem test_wf_admits_widest_literal : Line.wf 0 ⟨0x8#4, .lit 0xFF#64⟩ = true := by decide

/-- A name that is no earlier result (R77): the line's own, and r0. -/
theorem test_wf_refuses_later_result :
    Line.wf 2 ⟨0x0#4, .held 3⟩ = false ∧ Line.wf 2 ⟨0x0#4, .held 0⟩ = false ∧
    Line.wf 2 ⟨0x0#4, .held 2⟩ = true := by decide

/-- A program whose second line names itself. -/
theorem test_wf_refuses_program_with_bad_line :
    Line.programWf 0 [⟨0x0#4, .lit 0#64⟩, ⟨0x1#4, .held 2⟩] = false ∧
    Line.programWf 0 [⟨0x0#4, .lit 0#64⟩, ⟨0x1#4, .held 1⟩] = true := by decide

/-- Integer types that are not admitted (R6). -/
theorem test_wf_refuses_integer_types :
    IntType.admitted (.int true 128) = false ∧ IntType.admitted .bool = false ∧
    IntType.admitted .char = false ∧ IntType.admitted (.int false 8) = true ∧
    SourceLine.wf 0 (.cvtI 24 (.lit 0#64)) = false ∧
    SourceLine.wf 0 (.cvtInt .bool (.lit 0#64)) = false := by decide

/-- `rt32` and `rt16` check their operand at their first transaction's width. -/
theorem test_wf_refuses_wide_round_trip :
    SourceLine.wf 0 (.rt32 (.lit 0x100000000#64)) = false ∧
    SourceLine.wf 0 (.rt16 (.lit 0x10000#64)) = false ∧
    SourceLine.wf 0 (.rt16 (.lit 0xFFFF#64)) = true := by decide

/-! ## Witnesses: states and operands that meet a statement's hypotheses -/

/-- StepRunsDecodedTransaction, first clause. -/
theorem witness_literal_line :
    (waiting [⟨0x0#4, .lit 0x3F800000#64⟩] []).program = ⟨0x0#4, .lit 0x3F800000#64⟩ :: [] := rfl

/-- StepRunsDecodedTransaction, second clause. -/
theorem witness_held_inputs : State.reset.program = [] ∧ State.reset.inputsDefined = true := by decide

/-- StepPresentsEarlierResult. -/
theorem witness_earlier_result :
    (waiting [⟨0x1#4, .held (0 + 1)⟩] [.result 0x3FC0#32]).program = ⟨0x1#4, .held (0 + 1)⟩ :: [] ∧
    (waiting [⟨0x1#4, .held (0 + 1)⟩] [.result 0x3FC0#32]).log[0]? = some (.result 0x3FC0#32) := by
  decide

/-- StepPresentsEarlierResult, at a 64-bit operand whose 32-bit result has its top bit set: bits 63:32
are zero (the model's choice, log entry 7). -/
theorem witness_earlier_result_64 :
    (waiting [⟨0xF#4, .held (0 + 1)⟩] [.result 0xFF800000#32]).log[0]? =
      some (.result 0xFF800000#32) ∧
    lineOperand [.result 0xFF800000#32] ⟨0xF#4, .held (0 + 1)⟩ = .ok 0xFF800000#64 := ⟨rfl, rfl⟩

/-- StepStopsWithoutResultValue, first clause. -/
theorem witness_faulted_result :
    (waiting [⟨0x0#4, .held (0 + 1)⟩] [.fault (.reservedOp 0x2#4)]).program =
      ⟨0x0#4, .held (0 + 1)⟩ :: [] ∧
    (waiting [⟨0x0#4, .held (0 + 1)⟩] [.fault (.reservedOp 0x2#4)]).log[0]? =
      some (.fault (.reservedOp 0x2#4)) := by decide

/-- StepStopsWithoutResultValue, second clause, at its two boundaries. -/
theorem witness_missing_result :
    (waiting [⟨0x0#4, .held 1⟩] []).program = ⟨0x0#4, .held 1⟩ :: [] ∧
    (waiting [⟨0x0#4, .held 1⟩] []).log.length < 1 ∧
    (waiting [⟨0x0#4, .held 0⟩] []).program = ⟨0x0#4, .held 0⟩ :: [] := by decide

/-- StepRefusesUndefinedInputs. -/
theorem witness_undefined_inputs :
    State.reset.releaseInputs.program = [] ∧ State.reset.releaseInputs.inputsDefined = false := by
  decide

/-- StepRunsPlacedWord. -/
theorem witness_placed_word :
    decodeTableWord 72 0xC00000000000000FF = some (.cvtBf16S8 0xFF#64) := by decide

/-- NarrowNaNResult: a quiet NaN, and the boundaries of the two ranges of clause (c). -/
theorem witness_nan_operand :
    isNaN32 (operandF32 0x7FC00000#64) = true ∧ (0x7FC00000#64).getLsbD 22 = true ∧
    isNaN32 (operandF32 0x7F800001#64) = true ∧ (0x7F800001#64).getLsbD 22 = false ∧
    (0x7F800001#32 ≤ operandF32 0x7F800001#64 ∧ operandF32 0x7F800001#64 ≤ 0x7F80FFFF#32) ∧
    isNaN32 (operandF32 0xFF80FFFF#64) = true ∧
    (0xFF800001#32 ≤ operandF32 0xFF80FFFF#64 ∧ operandF32 0xFF80FFFF#64 ≤ 0xFF80FFFF#32) := by decide

/-- NarrowInfinityResult, both signs. -/
theorem witness_infinity_operand :
    isInfinite32 (operandF32 0x7F800000#64) = true ∧ (0x7F800000#64).getLsbD 31 = false ∧
    isInfinite32 (operandF32 0xFF800000#64) = true ∧ (0xFF800000#64).getLsbD 31 = true := by decide

/-- NarrowFlushesZeroAndDenormal, at the largest denormal. -/
theorem witness_denormal_operand : exponent32 (operandF32 0x807FFFFF#64) = 0x00#8 := by decide

/-- NarrowNormalResult: below the tie, at the tie with both low bits, above it, and the carry. -/
theorem witness_normal_operand :
    isNormal32 (operandF32 0x3F807FFF#64) = true ∧ low16 (operandF32 0x3F807FFF#64) < 0x8000#16 ∧
    isNormal32 (operandF32 0x3F808000#64) = true ∧ low16 (operandF32 0x3F808000#64) = 0x8000#16 ∧
    (high16 (operandF32 0x3F808000#64)).getLsbD 0 = false ∧
    isNormal32 (operandF32 0x3FFF8000#64) = true ∧ low16 (operandF32 0x3FFF8000#64) = 0x8000#16 ∧
    (high16 (operandF32 0x3FFF8000#64)).getLsbD 0 = true ∧
    mantissa16 (high16 (operandF32 0x3FFF8000#64)) = 0x7F#7 ∧
    isNormal32 (operandF32 0x3F808001#64) = true ∧ 0x8000#16 < low16 (operandF32 0x3F808001#64) := by
  decide

/-- NarrowOverflowThreshold: each clause at the boundary of its range. -/
theorem witness_overflow_boundaries :
    (isNormal32 0x7F7F8000#32 = true ∧ 0x7F7F8000#31 ≤ (0x7F7F8000#32).extractLsb' 0 31) ∧
    (exponent32 0x7F7F8000#32 = 254#8 ∧ mantissa16 (high16 0x7F7F8000#32) = 0x7F#7 ∧
      narrow 0x7F7F8000#32 = high16 0x7F7F8000#32 + 1#16) ∧
    (isNormal32 0x7F7F7FFF#32 = true ∧ 0x7F7F0000#31 ≤ (0x7F7F7FFF#32).extractLsb' 0 31 ∧
      (0x7F7F7FFF#32).extractLsb' 0 31 ≤ 0x7F7F7FFF#31) ∧
    (isNormal32 0x7F7EFFFF#32 = true ∧ (0x7F7EFFFF#32).extractLsb' 0 31 < 0x7F7F0000#31) := by decide

/-- NarrowNormalNeverUnderflows and NarrowEqualsBiasDatapath. -/
theorem witness_normal_and_infinite_pattern :
    exponent32 0x00800000#32 ≠ 0x00#8 ∧ exponent32 0x007FFFFF#32 = 0x00#8 ∧
    isNormal32 0x00800000#32 = true ∧ isInfinite32 0xFF800000#32 = true := by decide

/-- NarrowIsNearestTiesToEven: 1.00390625 lies half way between its neighbours 0x3F80 and 0x3F81. -/
theorem witness_tie_values :
    (isNormal32 0x3F808000#32 = true ∧ low16 0x3F808000#32 = 0x8000#16) ∧
    (val32 0x3F808000#32).real? = some (257 / 256) ∧
    (val16 (narrow 0x3F808000#32)).real? = some 1 ∧
    (val16 0x3F81#16).real? = some (129 / 128) ∧
    (0x3F81#16 : BF16) ≠ narrow 0x3F808000#32 ∧
    |(257 / 256 : ℚ) - 1| = |(257 / 256 : ℚ) - 129 / 128| := by
  refine ⟨by decide, ?_, ?_, ?_, by decide, by norm_num⟩
  · simp [val32, fieldsValue, FpValue.real?, exponent32, mantissa32]; norm_num
  · rw [show narrow 0x3F808000#32 = 0x3F80#16 by decide]
    simp [val16, fieldsValue, FpValue.real?, exponent16, mantissa16]
  · simp [val16, fieldsValue, FpValue.real?, exponent16, mantissa16]; norm_num

/-- NarrowIsNearestTiesToEven, overflow clause: F32_MAX is normal, has a value, and narrows to infinity. -/
theorem witness_overflowing_value :
    isNormal32 f32Max = true ∧ isInfinite16 (narrow f32Max) = true ∧
    ((val32 f32Max).real?).isSome = true ∧ ((val16 bf16Max).real?).isSome = true ∧
    isInfinite32 f32Inf = true := by
  refine ⟨by decide, by decide, ?_, ?_, by decide⟩
  · simp [val32, fieldsValue, FpValue.real?, exponent32, mantissa32, f32Max]
  · simp [val16, fieldsValue, FpValue.real?, exponent16, mantissa16, bf16Max]

/-- IntegerPatternsNarrowExactly: the f32 pattern of 257. -/
theorem witness_integer_pattern : (val32 0x43808000#32).real? = some ((257 : Int) : ℚ) := by
  simp [val32, fieldsValue, FpValue.real?, exponent32, mantissa32]; norm_num

/-- NarrowOfWiden: a signaling NaN at each end of the ranges, a subnormal, and neither. -/
theorem witness_widened_patterns :
    isSignaling16 0x7F81#16 = true ∧ isSignaling16 0xFFBF#16 = true ∧
    (0x7F81#16 ≤ 0x7FBF#16 ∧ 0x7FBF#16 ≤ 0x7FBF#16) ∧
    (0xFF81#16 ≤ 0xFF81#16 ∧ 0xFF81#16 ≤ 0xFFBF#16) ∧
    isSubnormal16 0x807F#16 = true ∧
    isSignaling16 0x7F80#16 = false ∧ isSubnormal16 0x7F80#16 = false := by decide

/-- NarrowResultClass: an operation that is neither reserved nor the widening. -/
theorem witness_narrowing_operation :
    isReservedOp (Instr.cvtBf16F32 0#64).op = false ∧ (Instr.cvtBf16F32 0#64).op ≠ 0x1#4 ∧
    exec (.cvtBf16F32 0#64) State.reset = .next (State.reset.driveResult16 0x0000#16) :=
  ⟨by decide, by decide, rfl⟩

/-- WidenHasNoSpecialCases and WidenExactAndInjective. -/
theorem witness_widening_patterns :
    isSubnormal16 0x0001#16 = true ∧ isNaN16 0x0001#16 = false ∧ widen 0x0001#16 = widen 0x0001#16 := by
  decide

/-- The integer statements: an admitted width, at its smallest and largest. -/
theorem witness_admitted_widths : 8 ∈ Config.intWidths ∧ 64 ∈ Config.intWidths := by decide

/-- IntegerZeroGivesPositiveZero, IntToF32IsNearestTiesToEven, IntegerConversionExactness and
DoubleRoundingIsNormative: operands that meet the inner hypotheses. -/
theorem witness_integer_operands :
    operandInt 0x100#64 8 = 0#8 ∧ (integerValue 0x80#64 8 true).natAbs ≤ 256 ∧
    (integerValue 0xFFFF#64 16 false).natAbs ≤ 2 ^ 24 ∧ integerValue 0xFFFF#64 16 true ≠ 0 ∧
    1 ≤ 16842752 ∧ 16842752 < 16842753 := by decide

/-- IntegerFieldDecode: s8 reads 8 bits, and two operands agree on them. -/
theorem witness_integer_fields :
    (0xC#4).getLsbD 3 = true ∧
    (0x12345678ABCDEFFF#64).toNat % 2 ^ (8 <<< ((0xC#4).extractLsb' 0 2).toNat) =
      (0xFF#64).toNat % 2 ^ (8 <<< ((0xC#4).extractLsb' 0 2).toNat) := by decide

/-- EqualOperandBitsGiveEqualOutputs: two words of `cvt.bf16.f32` that differ above the operand, each
with its next state. -/
theorem witness_equal_operand_bits :
    operandBits 0x0#4 0xFFFFFFFF3F800000#64 = operandBits 0x0#4 0x3F800000#64 ∧
    exec (decode (transactionWord 0x0#4 0xFFFFFFFF3F800000#64)) State.reset =
      .next (State.reset.driveResult16 0x3F80#16) ∧
    exec (decode (transactionWord 0x0#4 0x3F800000#64)) State.reset =
      .next (State.reset.driveResult16 0x3F80#16) := ⟨by decide, rfl, rfl⟩

/-- OperandWidths, ResultPlacement, EveryOperationCompletes: both kinds of op value. -/
theorem witness_op_values :
    isReservedOp 0x2#4 = true ∧ isReservedOp 0x7#4 = true ∧ (0x8#4).getLsbD 3 = true ∧
    isReservedOp (Instr.cvtBf16S64 0#64).op = false := by decide

/-- ResultPlacement, its four clauses, and IllegalExactlyForReservedOps: each with its next state. -/
theorem witness_decoded_results :
    exec (decode (transactionWord 0x0#4 0x3F800000#64)) State.reset =
      .next (State.reset.driveResult16 0x3F80#16) ∧
    exec (decode (transactionWord 0x1#4 0x3F80#64)) State.reset =
      .next (State.reset.driveResult 0x3F800000#32) ∧
    exec (decode (transactionWord 0xC#4 0xFF#64)) State.reset =
      .next (State.reset.driveResult16 0xBF80#16) ∧
    exec (decode (transactionWord 0x7#4 0xFF#64)) State.reset =
      .next (State.reset.raiseIllegal 0x7#4) ∧
    (0xC#4).getLsbD 3 = true ∧ isReservedOp 0x7#4 = true := ⟨rfl, rfl, rfl, rfl, by decide, by decide⟩

/-- ReservedOpRaisesIllegal, at both ends of the range, with another operand of the same op value. -/
theorem witness_reserved_range :
    (0x2#4 ≤ (Instr.reserved2 0#64).op ∧ (Instr.reserved2 0#64).op ≤ 0x7#4) ∧
    (0x2#4 ≤ (Instr.reserved7 0#64).op ∧ (Instr.reserved7 0#64).op ≤ 0x7#4) ∧
    (Instr.reserved7 1#64).op = (Instr.reserved7 0#64).op := by decide

/-- ReservedOpRaisesIllegal, IllegalExactlyForReservedOps, ExecFrame and EarlierTransactionLeavesNoTrace: a reserved op value and
then a conversion. -/
theorem witness_reserved_then_conversion :
    exec (.reserved5 0x7F7F7FFF#64) State.reset = .next (State.reset.raiseIllegal 0x5#4) ∧
    exec (.cvtBf16F32 0x7F7F7FFF#64) (State.reset.raiseIllegal 0x5#4) =
      .next ((State.reset.raiseIllegal 0x5#4).driveResult16 0x7F7F#16) ∧
    exec (.cvtBf16F32 0x7F7F7FFF#64) State.reset =
      .next (State.reset.driveResult16 0x7F7F#16) := ⟨rfl, rfl, rfl⟩

/-- RepeatingTransactionIsIdempotent and StepKeepsInvariant: the step from reset. -/
theorem witness_step_from_reset :
    State.reset.program = [] ∧
    step State.reset = .next (State.reset.driveResult16 0x0000#16) ∧
    step (State.reset.driveResult16 0x0000#16) =
      .next ((State.reset.driveResult16 0x0000#16).driveResult16 0x0000#16) := ⟨rfl, rfl, rfl⟩

/-- StepKeepsInvariant: a state with a recorded fault that meets the invariant (P5 after its step 2). -/
theorem witness_invariant :
    State.Inv { State.reset with
      op := 0x5#4, a := 0x7F7F7FFF#64, illegal := 1#1, log := [.fault (.reservedOp 0x5#4)] } where
  settled := fun _ => by unfold State.Settled; decide
  observed := by decide

/-- RunObservesEachTransaction and FaultFreeRunHasNoReservedOp: one transaction from reset. -/
theorem witness_run :
    (waiting [⟨0x2#4, .lit 0#64⟩] []).program =
      [(0x2#4, 0#64)].map (fun x : OpCode × OperandWord => (⟨x.1, .lit x.2⟩ : Line)) ∧
    run 1 (waiting [⟨0x2#4, .lit 0#64⟩] []) =
      .next (State.raiseIllegal 0x2#4 { State.reset with op := 0x2#4 }) := ⟨rfl, rfl⟩

theorem witness_fault_free : (waiting [⟨0x2#4, .lit 0#64⟩] []).FaultFree := by
  intro o h
  cases h

/-- RoundTripRuns, both clauses. -/
theorem witness_round_trip :
    expandSource 0 (.rt32 (.lit 0x3FC00001#64)) =
      .ok [⟨0x0#4, .lit 0x3FC00001#64⟩, ⟨0x1#4, .held 1⟩] ∧
    expandSource 0 (.rt16 (.lit 0x7F81#64)) =
      .ok [⟨0x1#4, .lit 0x7F81#64⟩, ⟨0x0#4, .held 1⟩] ∧
    (waiting [⟨0x0#4, .lit 0x3FC00001#64⟩, ⟨0x1#4, .held 1⟩] []).program =
      [⟨0x0#4, .lit 0x3FC00001#64⟩, ⟨0x1#4, .held 1⟩] ++ [] := ⟨rfl, rfl, rfl⟩

/-- AdmittedIntegerTypes, both clauses. -/
theorem witness_integer_types :
    (IntType.int true 64).admitted = true ∧ IntType.bool.admitted = false := by decide

/-- OpcodeTableAgreesWithDecoder: a row of the table. -/
theorem witness_opcode_row :
    (⟨"cvt.bf16.u64", 0xB0000000000000000#68, opMask⟩ : OpcodeRow) ∈ opcodeTable := by decide

end Sys2Proof.Tests
end

section
/-! PROOFS. The obligations of 00_scope.md: the integer types a host may ask a conversion for (R6),
and the named constants (R10, R11). -/

namespace Sys2Proof.Machine

/-! ### The admitted integer types -/

/-- The code of a width stands for that width: `W = 8 << w`. -/
theorem widthOfCode_of_codeOfWidth {W : Nat} {w : BitVec 2} (h : codeOfWidth W = some w) :
    widthOfCode w = W := by
  unfold codeOfWidth at h
  split at h <;> cases h <;> rfl

/-- The widths that have a code are the admitted ones. -/
theorem isSome_codeOfWidth (W : Nat) : (codeOfWidth W).isSome = Config.intWidths.contains W := by
  unfold codeOfWidth
  split
  case h_5 h8 h16 h32 h64 => simpa [Config.intWidths] using ⟨h8, h16, h32, h64⟩
  all_goals rfl

/-- The types that have an op value are the admitted ones. -/
theorem isSome_integerOp (ty : IntType) : (integerOp ty).isSome = ty.admitted := by
  cases ty with
  | int sgn W => simp [integerOp, IntType.admitted, isSome_codeOfWidth]
  | bool => rfl
  | char => rfl

/-- Only an `int` type has an op value, and it is `{1, sgn, w}` with `w` the code of its width. -/
theorem integerOp_eq_some {ty : IntType} {op : OpCode} (h : integerOp ty = some op) :
    ∃ (sgn : Bool) (W : Nat) (w : BitVec 2), ty = .int sgn W ∧ codeOfWidth W = some w ∧
      op = 1#1 ++ BitVec.ofBool sgn ++ w := by
  cases ty with
  | int sgn W =>
    obtain ⟨w, hw, rfl⟩ := Option.map_eq_some_iff.mp h
    exact ⟨sgn, W, w, rfl, hw, rfl⟩
  | bool => cases h
  | char => cases h

/-- The three fields of an integer op value `{1, sgn, w}` (30_encoding.md R70). -/
theorem integerOp_fields (sgn : Bool) (w : BitVec 2) :
    (1#1 ++ BitVec.ofBool sgn ++ w).getLsbD 3 = true ∧
    (1#1 ++ BitVec.ofBool sgn ++ w).getLsbD 2 = sgn ∧
    (1#1 ++ BitVec.ofBool sgn ++ w).extractLsb' 0 2 = w := by
  revert sgn w
  decide

/-- An op value with bit 3 set reads the width its code stands for. -/
theorem operandWidth_of_integer {op : OpCode} (h : op.getLsbD 3 = true) :
    operandWidth op = widthOfCode (op.extractLsb' 0 2) := by
  rw [operandWidth, if_pos h]

/-- The op value of an admitted type is an integer operation of its signedness and width. -/
theorem integerOp_int_eq_some {sgn : Bool} {W : Nat} {op : OpCode}
    (h : integerOp (.int sgn W) = some op) :
    op.getLsbD 3 = true ∧ op.getLsbD 2 = sgn ∧ operandWidth op = W := by
  obtain ⟨_, _, w, ⟨⟩, hw, rfl⟩ := integerOp_eq_some h
  obtain ⟨hint, hsgn, hcode⟩ := integerOp_fields sgn w
  refine ⟨hint, hsgn, ?_⟩
  rw [operandWidth_of_integer hint, hcode, widthOfCode_of_codeOfWidth hw]

theorem expandSource_cvtInt_of_some {ty : IntType} {op : OpCode} (h : integerOp ty = some op)
    (n : Nat) (x : HostOperand) : expandSource n (.cvtInt ty x) = .ok [⟨op, x⟩] := by
  simp [expandSource, expandSource.expandInt, h]

theorem expandSource_cvtInt_of_none {ty : IntType} (h : integerOp ty = none)
    (n : Nat) (x : HostOperand) :
    expandSource n (.cvtInt ty x) = .error (.integerTypeNotAdmitted ty) := by
  simp [expandSource, expandSource.expandInt, h]

/-- Settles O55: the types with an op value are the admitted ones, and that op value's fields are the
type's signedness and width. -/
theorem admittedIntegerTypes : Obligations.AdmittedIntegerTypes := by
  intro n ty x
  constructor
  · intro hadm
    obtain ⟨op, hop⟩ := Option.isSome_iff_exists.mp ((isSome_integerOp ty).trans hadm)
    obtain ⟨sgn, W, _, rfl, _⟩ := integerOp_eq_some hop
    exact ⟨op, sgn, W, rfl, expandSource_cvtInt_of_some hop n x, integerOp_int_eq_some hop⟩
  · intro hadm
    have hnone : integerOp ty = none :=
      Option.not_isSome_iff_eq_none.mp (by simp [isSome_integerOp, hadm])
    exact expandSource_cvtInt_of_none hnone n x

/-! ### The value of a pattern by R10's cases, and the named constants -/

theorem fieldsValue_of_normal {k e f : Nat} (s : Bool) (h0 : e ≠ 0) (h255 : e ≠ 255) :
    fieldsValue k s e f = .finite s ((2 : ℚ) ^ ((e : ℤ) - 127) * (1 + (f : ℚ) / 2 ^ k)) := by
  rw [fieldsValue, if_neg h255, if_neg h0]

theorem fieldsValue_of_exponent_zero (k : Nat) (s : Bool) (f : Nat) :
    fieldsValue k s 0 f = .finite s ((2 : ℚ) ^ (-126 : ℤ) * ((f : ℚ) / 2 ^ k)) := rfl

theorem fieldsValue_infinite (k : Nat) (s : Bool) : fieldsValue k s 255 0 = .infinite s := rfl

theorem fieldsValue_nan {k f : Nat} (s : Bool) (hf : f ≠ 0) :
    fieldsValue k s 255 f = .nan (decide (2 ^ (k - 1) ≤ f)) := by
  rw [fieldsValue, if_pos rfl, if_neg hf]

@[simp] theorem FpValue.real?_finite_false (m : ℚ) : (FpValue.finite false m).real? = some m := rfl

/-- A positive normal pattern with mantissa 0 is a power of two. -/
theorem real?_fieldsValue_mantissa_zero {e : Nat} {x : ℤ} (k : Nat) (h0 : e ≠ 0) (h255 : e ≠ 255)
    (hx : (e : ℤ) - 127 = x) : (fieldsValue k false e 0).real? = some (2 ^ x) := by
  simp [fieldsValue_of_normal false h0 h255, hx]

/-- A positive normal pattern with every mantissa bit 1 has the largest significand, `2 - 2^-k`. -/
theorem real?_fieldsValue_mantissa_ones {e : Nat} {x : ℤ} (k : Nat) (h0 : e ≠ 0) (h255 : e ≠ 255)
    (hx : (e : ℤ) - 127 = x) :
    (fieldsValue k false e (2 ^ k - 1)).real? = some ((2 - 2 ^ (-(k : ℤ))) * 2 ^ x) := by
  have hk : (2 : ℚ) ^ k ≠ 0 := by positivity
  rw [fieldsValue_of_normal false h0 h255, hx, FpValue.real?_finite_false, zpow_neg, zpow_natCast,
    Nat.cast_sub Nat.one_le_two_pow]
  congr 1
  push_cast
  field_simp
  ring

/-- The successor of 1 is `2^-k` above it. -/
theorem real?_fieldsValue_successor_of_one (k : Nat) :
    (fieldsValue k false 127 1).real? = some (1 + 2 ^ (-(k : ℤ))) := by
  simp [fieldsValue_of_normal]

/-- The smallest positive denormal. -/
theorem real?_fieldsValue_smallest_denormal (k : Nat) :
    (fieldsValue k false 0 1).real? = some (2 ^ (-126 - (k : ℤ))) := by
  rw [fieldsValue_of_exponent_zero, FpValue.real?_finite_false, zpow_sub₀ two_ne_zero, zpow_natCast,
    Nat.cast_one, mul_one_div]

/-- Settles O58: each constant is a pattern with a simple mantissa (0, 1, all ones or the quiet bit), and
R10's value of such fields is a lemma above. -/
theorem namedConstantValues : Obligations.NamedConstantValues := by
  refine ⟨?f32Max, ?bf16Max, rfl, ?f32MinNormal, ?bf16MinNormal, ?f32MinDenormal,
    fieldsValue_infinite 23 false, fieldsValue_infinite 7 false,
    fieldsValue_infinite 23 true, fieldsValue_infinite 7 true,
    ?f32QNaN, ?bf16QNaN, ?f32Epsilon, ?bf16Epsilon, ?bf16EpsilonF32, ?one, ?successor⟩
  case f32Max => exact real?_fieldsValue_mantissa_ones (e := 254) 23 (by decide) (by decide) rfl
  case bf16Max => exact real?_fieldsValue_mantissa_ones (e := 254) 7 (by decide) (by decide) rfl
  case f32MinNormal => exact real?_fieldsValue_mantissa_zero (e := 1) 23 (by decide) (by decide) rfl
  case bf16MinNormal => exact real?_fieldsValue_mantissa_zero (e := 1) 7 (by decide) (by decide) rfl
  case f32MinDenormal => exact real?_fieldsValue_smallest_denormal 23
  case f32QNaN => exact fieldsValue_nan (f := 2 ^ 22) false (by decide)
  case bf16QNaN => exact fieldsValue_nan (f := 2 ^ 6) false (by decide)
  case f32Epsilon => exact real?_fieldsValue_mantissa_zero (e := 104) 23 (by decide) (by decide) rfl
  case bf16Epsilon => exact real?_fieldsValue_mantissa_zero (e := 120) 7 (by decide) (by decide) rfl
  case bf16EpsilonF32 =>
    exact real?_fieldsValue_mantissa_zero (e := 120) 23 (by decide) (by decide) rfl
  case one => exact real?_fieldsValue_mantissa_zero (e := 127) 7 (by decide) (by decide) rfl
  case successor => exact real?_fieldsValue_successor_of_one 7

end Sys2Proof.Machine
end

section
/-! PROOFS. The obligations of 10_state.md: the fields of a pattern (R28, R29), the classes of a
narrowing result (R30), the value of an integer operand (R32), the outputs as functions of the inputs
(R34), the frame of a transaction (R20, R24, R27), and the invariant every step keeps. -/

namespace Sys2Proof.Machine

/-! ### The fields of a pattern -/

/-- The fields are adjacent slices of the f32 pattern. -/
theorem fields32_append (p : F32) : sign32 p ++ exponent32 p ++ mantissa32 p = p := by
  have hupper : sign32 p ++ exponent32 p = p.extractLsb' 23 9 :=
    BitVec.extractLsb'_append_extractLsb'_eq_extractLsb' rfl
  rw [hupper]
  exact (BitVec.extractLsb'_append_extractLsb'_eq_extractLsb' rfl).trans BitVec.extractLsb'_eq_self

/-- The fields are adjacent slices of the bf16 pattern. -/
theorem fields16_append (q : BF16) : sign16 q ++ exponent16 q ++ mantissa16 q = q := by
  have hupper : sign16 q ++ exponent16 q = q.extractLsb' 7 9 :=
    BitVec.extractLsb'_append_extractLsb'_eq_extractLsb' rfl
  rw [hupper]
  exact (BitVec.extractLsb'_append_extractLsb'_eq_extractLsb' rfl).trans BitVec.extractLsb'_eq_self

/-- Settles O56: adjacent slices that cover a pattern append to it. -/
theorem patternsAreTheirFields : Obligations.PatternsAreTheirFields :=
  ⟨fields32_append, fields16_append⟩

/-- The exponent of an f32 pattern is the exponent of its high half. -/
@[simp] theorem exponent16_high16 (x : F32) : exponent16 (high16 x) = exponent32 x := by
  ext i hi
  simp [exponent16, high16, exponent32, show 7 + i < 16 by omega,
    show 16 + (7 + i) = 23 + i by omega]

/-- The mantissa of the high half is the upper part of the f32 mantissa. -/
@[simp] theorem mantissa16_high16 (x : F32) :
    mantissa16 (high16 x) = (mantissa32 x).extractLsb' 16 7 := by
  ext i hi
  simp [mantissa16, high16, mantissa32, show i < 16 by omega]

theorem toNat_exponent16 (q : BF16) : (exponent16 q).toNat = q.toNat / 2 ^ 7 % 2 ^ 8 := by
  rw [exponent16, BitVec.extractLsb'_toNat, Nat.shiftRight_eq_div_pow]

theorem toNat_mantissa16 (q : BF16) : (mantissa16 q).toNat = q.toNat % 2 ^ 7 := by
  rw [mantissa16, BitVec.extractLsb'_toNat, Nat.shiftRight_zero]

/-! ### The class of a narrowing result (10_state.md R30) -/

/-- The narrow classes are all classes but the subnormals and the signaling NaNs. -/
theorem isNarrowClass_iff (q : BF16) :
    isNarrowClass q = true ↔ isSubnormal16 q = false ∧ isSignaling16 q = false := by
  simp only [isNarrowClass, isZero16, isNormal16, isInfinite16, isQuiet16, isSubnormal16,
    isSignaling16, isNaN16]
  by_cases h0 : exponent16 q = 0x00#8
  · simp [h0]
  · by_cases hFF : exponent16 q = 0xFF#8
    · by_cases hm : mantissa16 q = 0#7 <;> simp [hFF, hm]
    · simp [h0, hFF]

theorem isQuiet16_of_bit6 {q : BF16} (he : exponent16 q = 0xFF#8)
    (hq : (mantissa16 q).getLsbD 6 = true) : isQuiet16 q = true := by
  have hm : mantissa16 q ≠ 0#7 := by
    intro h
    simp [h] at hq
  simp [isQuiet16, isNaN16, he, hq, hm]

/-- Setting the quiet bit of a pattern of exponent 0xFF gives a quiet NaN (40_narrowing.md R103). -/
theorem isQuiet16_or_quiet_bit {q : BF16} (he : exponent16 q = 0xFF#8) :
    isQuiet16 (q ||| 0x0040#16) = true := by
  apply isQuiet16_of_bit6
  · have hor : exponent16 (q ||| 0x0040#16) = exponent16 q ||| exponent16 0x0040#16 :=
      BitVec.extractLsb'_or
    rw [hor, he]
    rfl
  · simp [mantissa16]

theorem isZero16_sign_append (s : BitVec 1) : isZero16 (s ++ 0#15) = true := by
  revert s
  decide

/-- The carry of a rounding increment moves a normal pattern to a normal one or, with mantissa 0, to an
infinity (40_narrowing.md R106, R107). -/
theorem isNormal16_or_isInfinite16_add_one {q : BF16} (h : isNormal16 q = true) :
    isNormal16 (q + 0x0001#16) = true ∨ isInfinite16 (q + 0x0001#16) = true := by
  simp only [isNormal16, isInfinite16, Bool.and_eq_true, bne_iff_ne, beq_iff_eq, ne_eq,
    ← BitVec.toNat_inj, toNat_exponent16, toNat_mantissa16, BitVec.toNat_add,
    BitVec.toNat_ofNat] at h ⊢
  have hq := q.isLt
  omega

/-- `Narrow` gives a pattern of the narrow classes for every input. -/
theorem isNarrowClass_narrow (x : F32) : isNarrowClass (narrow x) = true := by
  obtain hnan | hinf | hzero | hnormal := narrow_classes x
  · have he : exponent16 (high16 x) = 0xFF#8 := by
      simp only [isNaN32, Bool.and_eq_true, beq_iff_eq] at hnan
      rw [exponent16_high16, hnan.1]
    simp [narrow_of_isNaN32 hnan, isNarrowClass, isQuiet16_or_quiet_bit he]
  · have hhigh : isInfinite16 (high16 x) = true := by
      simp only [isInfinite32, Bool.and_eq_true, beq_iff_eq] at hinf
      simp [isInfinite16, hinf]
    simp [narrow_of_isInfinite32 hinf, isNarrowClass, hhigh]
  · simp [narrow_of_exponent_zero hzero, isNarrowClass, isZero16_sign_append]
  · have hhigh : isNormal16 (high16 x) = true := by
      rwa [isNormal16, exponent16_high16]
    rw [narrow_of_isNormal32 hnormal]
    cases narrowRoundsUp x with
    | false => simp [isNarrowClass, hhigh]
    | true => obtain h | h := isNormal16_or_isInfinite16_add_one hhigh <;> simp [isNarrowClass, h]

/-! ### The outputs of the datapath -/

@[simp] theorem low16_append (hi lo : BitVec 16) : low16 (hi ++ lo) = lo :=
  BitVec.extractLsb'_append_eq_right

@[simp] theorem high16_append (hi lo : BitVec 16) : high16 (hi ++ lo) = hi :=
  BitVec.extractLsb'_append_eq_left

/-- The reserved op values are those with bit 3 clear that are neither 0 nor 1. -/
theorem isReservedOp_eq_true_iff (op : OpCode) :
    isReservedOp op = true ↔ op.getLsbD 3 = false ∧ op ≠ 0x0#4 ∧ op ≠ 0x1#4 := by
  revert op
  decide

theorem outputs_reserved {op : OpCode} (h : isReservedOp op = true) (a : OperandWord) :
    outputs op a = ⟨1#1, 0x00000000#32⟩ := by
  obtain ⟨h3, h0, h1⟩ := (isReservedOp_eq_true_iff op).mp h
  rw [outputs, h3, if_neg Bool.false_ne_true, if_neg h0, if_neg h1, illegalFlag, if_pos h]

theorem outputs_illegal_of_not_reserved {op : OpCode} (h : isReservedOp op = false)
    (a : OperandWord) : (outputs op a).illegal = 0#1 := by
  simp [outputs_illegal, illegalFlag, h]

theorem outputs_widening (a : OperandWord) :
    outputs 0x1#4 a = ⟨0#1, widen (operandBF16 a)⟩ := rfl

/-- Every operation but the widening places a result of `Narrow` on `y`. -/
theorem outputs_y_narrow {op : OpCode} (h : isReservedOp op = false) (h1 : op ≠ 0x1#4)
    (a : OperandWord) : ∃ x : F32, (outputs op a).y = 0x0000#16 ++ narrow x := by
  by_cases h3 : op.getLsbD 3 = true
  · exact ⟨_, congrArg Outputs.y (outputs_integer h3 a)⟩
  · have h0 : op = 0x0#4 := by
      by_contra h0
      have hres := (isReservedOp_eq_true_iff op).mpr ⟨by simpa using h3, h0, h1⟩
      simp [h] at hres
    subst h0
    exact ⟨operandF32 a, rfl⟩

/-- Every operation's `y` is a result of the block's classes. -/
theorem isBlockResult_outputs {op : OpCode} (h : isReservedOp op = false) (a : OperandWord) :
    isBlockResult (outputs op a).y = true := by
  by_cases h1 : op = 0x1#4
  · subst h1
    simp [outputs_widening, isBlockResult, widen]
  · obtain ⟨x, hx⟩ := outputs_y_narrow h h1 a
    simp [hx, isBlockResult, isNarrowClass_narrow]

/-- What the host observes is the pair on the output ports (70_reset_and_hazards.md R247). -/
theorem observe_pair (op : OpCode) (a : OperandWord) :
    (observe op a).pair = ((outputs op a).illegal, (outputs op a).y) := by
  cases h : isReservedOp op with
  | true => simp [observe, h, Observation.pair, outputs_reserved h]
  | false => simp [observe, h, Observation.pair, outputs_illegal_of_not_reserved h]

theorem observe_ofBlock (op : OpCode) (a : OperandWord) : (observe op a).ofBlock = true := by
  cases h : isReservedOp op with
  | true => simp [observe, h, Observation.ofBlock]
  | false => simp [observe, h, Observation.ofBlock, isBlockResult_outputs h]

/-! ### Every meaning drives the datapath's outputs -/

/-- `s` after the transaction `{op, a}`: the output ports hold the datapath's outputs, and the host has
kept one more observation. -/
def State.complete (op : OpCode) (a : OperandWord) (s : State) : State :=
  { s with
    y := (outputs op a).y
    illegal := (outputs op a).illegal
    log := s.log ++ [observe op a] }

@[simp] theorem State.complete_op (op : OpCode) (a : OperandWord) (s : State) :
    (s.complete op a).op = s.op := rfl

@[simp] theorem State.complete_a (op : OpCode) (a : OperandWord) (s : State) :
    (s.complete op a).a = s.a := rfl

@[simp] theorem State.complete_inputsDefined (op : OpCode) (a : OperandWord) (s : State) :
    (s.complete op a).inputsDefined = s.inputsDefined := rfl

@[simp] theorem State.complete_y (op : OpCode) (a : OperandWord) (s : State) :
    (s.complete op a).y = (outputs op a).y := rfl

@[simp] theorem State.complete_illegal (op : OpCode) (a : OperandWord) (s : State) :
    (s.complete op a).illegal = (outputs op a).illegal := rfl

@[simp] theorem State.complete_program (op : OpCode) (a : OperandWord) (s : State) :
    (s.complete op a).program = s.program := rfl

@[simp] theorem State.complete_log (op : OpCode) (a : OperandWord) (s : State) :
    (s.complete op a).log = s.log ++ [observe op a] := rfl

/-- The meaning of each instruction and the datapath on its op value and operand compute the same. -/
theorem exec_eq_complete (i : Instr) (s : State) :
    exec i s = .next (s.complete i.op i.operand) := by
  cases i <;> simp only [Instr.op, Instr.operand] <;> rfl

theorem eq_complete_of_exec {i : Instr} {s t : State} (h : exec i s = .next t) :
    t = s.complete i.op i.operand := by
  rw [exec_eq_complete] at h
  cases h
  rfl

/-- Settles O46: completing a transaction writes `y`, `illegal` and one observation. -/
theorem execFrame : Obligations.ExecFrame := by
  intro i s t h
  rw [eq_complete_of_exec h]
  exact ⟨rfl, rfl, rfl, rfl, observe i.op i.operand, rfl, observe_pair i.op i.operand⟩

/-- Settles O45: both runs of `j` end with the datapath's outputs for `j`, which no state enters. -/
theorem earlierTransactionLeavesNoTrace : Obligations.EarlierTransactionLeavesNoTrace := by
  intro i j s t u v _ hu hv
  rw [eq_complete_of_exec hu, eq_complete_of_exec hv]
  exact ⟨rfl, rfl⟩

/-- Settles O25: the low half of `y` is a result of `Narrow`, whose class is narrow. -/
theorem narrowResultClass : Obligations.NarrowResultClass := by
  intro i s t hres hwiden h
  obtain ⟨x, hx⟩ := outputs_y_narrow hres hwiden i.operand
  have hlow : low16 t.y = narrow x := by
    rw [eq_complete_of_exec h, State.complete_y, hx, low16_append]
  rw [hlow]
  exact ⟨isNarrowClass_narrow x, (isNarrowClass_iff _).mp (isNarrowClass_narrow x)⟩

/-! ### The decoded instruction's op value and operand -/

theorem decodeInteger_op (sgn : Bool) (w : BitVec 2) (a : OperandWord) :
    (decodeInteger sgn w a).op = 1#1 ++ BitVec.ofBool sgn ++ w := by
  unfold decodeInteger
  split <;> rename_i hw <;> rw [← BitVec.ofFin_toFin w, hw] <;> rfl

theorem decodeInteger_operand (sgn : Bool) (w : BitVec 2) (a : OperandWord) :
    (decodeInteger sgn w a).operand = a := by
  unfold decodeInteger
  split <;> rfl

theorem decodeFloat_op (sel : BitVec 3) (a : OperandWord) :
    (decodeFloat sel a).op = 0#1 ++ sel := by
  unfold decodeFloat
  split <;> rename_i hsel <;> rw [← BitVec.ofFin_toFin sel, hsel] <;> rfl

theorem decodeFloat_operand (sel : BitVec 3) (a : OperandWord) :
    (decodeFloat sel a).operand = a := by
  unfold decodeFloat
  split <;> rfl

/-- An op value is its bit 3 and the fields the decoder reads beside it (30_encoding.md R76). -/
theorem op_fields (op : OpCode) :
    (op.getLsbD 3 = true →
      1#1 ++ BitVec.ofBool (op.getLsbD 2) ++ op.extractLsb' 0 2 = op) ∧
    (¬ op.getLsbD 3 = true → 0#1 ++ op.extractLsb' 0 3 = op) := by
  revert op
  decide

/-- The decoder reads the operation of the word's op field. -/
@[simp] theorem decode_op (T : TransactionWord) : (decode T).op = opField T := by
  obtain ⟨hint, hfloat⟩ := op_fields (opField T)
  unfold decode
  dsimp only
  split
  · next h => rw [decodeInteger_op, hint h]
  · next h => rw [decodeFloat_op, hfloat h]

/-- The decoder keeps the word's whole operand field. -/
@[simp] theorem decode_operand (T : TransactionWord) : (decode T).operand = operandField T := by
  unfold decode
  dsimp only
  split
  · exact decodeInteger_operand _ _ _
  · exact decodeFloat_operand _ _

/-- Running a transaction word completes its transaction. -/
theorem exec_decode_transactionWord (op : OpCode) (a : OperandWord) (s : State) :
    exec (decode (transactionWord op a)) s = .next (s.complete op a) := by
  simp [exec_eq_complete]

/-- Settles O37: the decoded word completes with the datapath's outputs. -/
theorem outputsAreFunctionsOfInputs : Obligations.OutputsAreFunctionsOfInputs := by
  intro op a s
  exact ⟨s.complete op a, exec_decode_transactionWord op a s, rfl⟩

/-! ### The invariant -/

/-- Presenting a transaction observes nothing. -/
theorem presentNext_log {s p : State} (h : presentNext s = .next p) : p.log = s.log := by
  obtain ⟨-, -, hp⟩ | ⟨-, -, hp⟩ | ⟨l, rest, a, -, -, hp⟩ | ⟨l, rest, f, -, -, hp⟩ :=
    presentNext_cases s <;> rw [hp] at h <;> cases h <;> rfl

/-- A step completes the transaction it presents. -/
theorem step_next_complete {s t : State} (h : step s = .next t) :
    ∃ p, presentNext s = .next p ∧ t = p.complete p.op p.a := by
  obtain ⟨p, hp, -, hexec⟩ := step_next h
  rw [State.presented_eq, exec_decode_transactionWord] at hexec
  cases hexec
  exact ⟨p, hp, rfl⟩

/-- Completing the transaction on the input ports settles the outputs. -/
theorem settled_complete (p : State) : (p.complete p.op p.a).Settled := rfl

/-- Settles O50: a step settles the outputs of the transaction it presents, and adds to the log one
observation the block can give. -/
theorem stepKeepsInvariant : Obligations.StepKeepsInvariant := by
  intro s t hinv h
  obtain ⟨p, hp, rfl⟩ := step_next_complete h
  refine ⟨fun _ => settled_complete p, fun o ho => ?_⟩
  rw [State.complete_log, presentNext_log hp, List.mem_append, List.mem_singleton] at ho
  obtain hold | rfl := ho
  · exact hinv.observed o hold
  · exact observe_ofBlock p.op p.a

/-! ### The value of an integer operand -/

theorem toNat_operandInt (a : OperandWord) (W : Nat) :
    (operandInt a W).toNat = a.toNat % 2 ^ W := by
  rw [operandInt, BitVec.extractLsb'_toNat, Nat.shiftRight_zero]

theorem integerValue_unsigned (a : OperandWord) (W : Nat) :
    integerValue a W false = ((a.toNat % 2 ^ W : Nat) : Int) :=
  congrArg Nat.cast (toNat_operandInt a W)

theorem integerValue_signed (a : OperandWord) (W : Nat) :
    integerValue a W true = (operandInt a W).toInt := rfl

/-- The signed value is congruent to `a` modulo `2^W`. -/
theorem integerValue_signed_emod (a : OperandWord) (W : Nat) :
    integerValue a W true % 2 ^ W = ((a.toNat % 2 ^ W : Nat) : Int) := by
  rw [integerValue_signed, BitVec.toInt_eq_toNat_bmod, toNat_operandInt]
  have hemod := Int.bmod_emod (x := ((a.toNat % 2 ^ W : Nat) : Int)) (m := 2 ^ W)
  push_cast at hemod ⊢
  rw [hemod, Int.emod_emod]

/-- Settles O31: the operand slice is `a` modulo `2^W`, and two's complement is its balanced residue. The
rule holds at every width. -/
theorem integerOperandValue : Obligations.IntegerOperandValue := by
  intro a W _
  have hlt : ((a.toNat % 2 ^ W : Nat) : Int) < 2 ^ W := by
    exact_mod_cast Nat.mod_lt _ (Nat.two_pow_pos W)
  have hlo := BitVec.le_toInt (operandInt a W)
  have hhi := BitVec.toInt_lt (x := operandInt a W)
  refine ⟨integerValue_unsigned a W, ⟨?_, ?_⟩, ⟨hlo, Int.le_sub_one_of_lt hhi⟩,
    integerValue_signed_emod a W⟩ <;> rw [integerValue_unsigned]
  · exact Int.natCast_nonneg _
  · exact Int.le_sub_one_of_lt hlt

end Sys2Proof.Machine
end

section
/-! PROOFS. The obligations of 20_memory.md: an f32 pattern in host storage (R50), the operand bits that
decide the outputs (R52), and a repeated transaction (R54). -/

namespace Sys2Proof.Machine

/-! ### The operand bits decide the outputs -/

theorem operandF32_eq_operandInt (a : OperandWord) : operandF32 a = operandInt a 32 := rfl

theorem operandBF16_eq_operandInt (a : OperandWord) : operandBF16 a = operandInt a 16 := rfl

theorem outputs_narrowing (a : OperandWord) :
    outputs 0x0#4 a = ⟨0#1, 0x0000#16 ++ narrow (operandF32 a)⟩ := rfl

/-- An integer operation's result depends on the operand bits of its width only. -/
theorem intToBf16ViaF32_congr {a a' : OperandWord} {w : BitVec 2} (sgn : BitVec 1)
    (h : a.toNat % 2 ^ widthOfCode w = a'.toNat % 2 ^ widthOfCode w) :
    intToBf16ViaF32 a w sgn = intToBf16ViaF32 a' w sgn := by
  rw [intToBf16ViaF32_eq, intToBf16ViaF32_eq, intToBf16, intToBf16, intToF32_congr _ h]

/-- The datapath reads no bit of `a` above the operand (30_encoding.md R72). -/
theorem outputs_congr {op : OpCode} {a a' : OperandWord}
    (h : operandBits op a = operandBits op a') : outputs op a = outputs op a' := by
  by_cases h3 : op.getLsbD 3 = true
  · rw [operandBits, operandBits, operandWidth_of_integer h3] at h
    rw [outputs_integer h3, outputs_integer h3, intToBf16ViaF32_congr _ h]
  by_cases h0 : op = 0x0#4
  · subst h0
    have hoperand : operandF32 a = operandF32 a' := operandInt_congr h
    rw [outputs_narrowing, outputs_narrowing, hoperand]
  by_cases h1 : op = 0x1#4
  · subst h1
    have hoperand : operandBF16 a = operandBF16 a' := operandInt_congr h
    rw [outputs_widening, outputs_widening, hoperand]
  have hres := (isReservedOp_eq_true_iff op).mpr ⟨by simpa using h3, h0, h1⟩
  rw [outputs_reserved hres, outputs_reserved hres]

/-- Settles O39: both transactions complete with the datapath's outputs, which the operand bits decide
and no state enters. -/
theorem equalOperandBitsGiveEqualOutputs : Obligations.EqualOperandBitsGiveEqualOutputs := by
  intro op a a' s s' t t' hbits ht ht'
  rw [exec_decode_transactionWord] at ht ht'
  cases ht
  cases ht'
  have houtputs := outputs_congr hbits
  exact ⟨congrArg Outputs.y houtputs, congrArg Outputs.illegal houtputs⟩

/-! ### A repeated transaction -/

/-- With no line waiting, a step completes the transaction held on the input ports. -/
theorem eq_complete_of_step_of_program_nil {s t : State} (hprog : s.program = [])
    (h : step s = .next t) : t = s.complete s.op s.a := by
  obtain ⟨p, hp, rfl⟩ := step_next_complete h
  obtain ⟨-, -, hs⟩ | ⟨-, -, hs⟩ | ⟨l, rest, a, hl, -, -⟩ | ⟨l, rest, f, hl, -, -⟩ :=
    presentNext_cases s
  · rw [hs] at hp
    cases hp
    rfl
  · rw [hs] at hp
    cases hp
  · rw [hprog] at hl
    cases hl
  · rw [hprog] at hl
    cases hl

/-- Settles O47: the first step leaves the inputs and the empty program as they were, so the second
completes the same transaction. -/
theorem repeatingTransactionIsIdempotent : Obligations.RepeatingTransactionIsIdempotent := by
  intro s t u hprog ht hu
  obtain rfl := eq_complete_of_step_of_program_nil hprog ht
  have hprog' : (s.complete s.op s.a).program = [] := hprog
  obtain rfl := eq_complete_of_step_of_program_nil hprog' hu
  exact ⟨rfl, rfl, rfl, rfl, hprog⟩

/-! ### A pattern in host storage -/

@[simp] theorem length_storedBytes_little (k : Nat) (p : BitVec (8 * k)) :
    (storedBytes .little k p).length = k := by
  simp [storedBytes]

/-- Least significant byte first: offset `i` holds the byte at bit `8 * i`. -/
@[simp] theorem getElem_storedBytes_little {k : Nat} (p : BitVec (8 * k)) {i : Nat}
    (hi : i < (storedBytes .little k p).length) :
    (storedBytes .little k p)[i] = p.extractLsb' (8 * i) 8 := by
  simp [storedBytes]

/-- A slice that lies inside a slice is a slice of the pattern itself. -/
theorem extractLsb'_extractLsb' {n start len start' len' : Nat} (p : BitVec n)
    (h : start + len ≤ len') :
    (p.extractLsb' start' len').extractLsb' start len = p.extractLsb' (start' + start) len := by
  ext b hb
  simp [show start + b < len' by omega, Nat.add_assoc]

/-- From offset `j` on, a little-endian host stores the pattern without its low `j` bytes. -/
theorem drop_storedBytes_little (j k : Nat) (p : BitVec (8 * (j + k))) :
    (storedBytes .little (j + k) p).drop j =
      storedBytes .little k (p.extractLsb' (8 * j) (8 * k)) := by
  apply List.ext_getElem
  · simp
  · intro i _ hi
    rw [length_storedBytes_little] at hi
    rw [List.getElem_drop, getElem_storedBytes_little, getElem_storedBytes_little,
      extractLsb'_extractLsb' p (by omega), Nat.mul_add 8 j i]

/-- Settles O57: the high half is the pattern without its low two bytes. -/
theorem storedPatternHoldsItsHighHalf : Obligations.StoredPatternHoldsItsHighHalf :=
  drop_storedBytes_little 2 2

end Sys2Proof.Machine
end

section
/-! PROOFS. The obligations of 30_encoding.md: the decoder, the encoder and the opcode table (R70, R71,
R75, R76), the operand widths and the result placement (R72, R73, R74), the step that presents a host
line (R77), and the pseudo-operations (R78). -/

namespace Sys2Proof.Machine

/-! ### The decoder and the encoder are inverse -/

/-- Decoding undoes encoding: the op value of each constructor selects that constructor. -/
@[simp] theorem decode_encode (i : Instr) : decode (encode i) = i := by
  rw [encode, decode_transactionWord]
  cases i <;> simp [Instr.op, Instr.operand, decodeInteger, decodeFloat]

/-- Encoding undoes decoding: the decoder keeps both fields of the word. -/
@[simp] theorem encode_decode (T : TransactionWord) : encode (decode T) = T := by
  rw [encode, decode_op, decode_operand, transactionWord_fields]

/-- Settles O1: the decoder sees the op value and the operand that the encoder wrote. -/
theorem decodeOfEncodeIsIdentity : Obligations.DecodeOfEncodeIsIdentity := decode_encode

/-- Settles O2: a word is its two fields, and the decoded instruction has both. -/
theorem encodeOfDecodeIsIdentity : Obligations.EncodeOfDecodeIsIdentity := encode_decode

/-- Settles O4: each word is the encoding of its operation. -/
theorem operationMapByOpValue : Obligations.OperationMapByOpValue := by
  intro a
  exact ⟨decode_encode (.cvtBf16F32 a), decode_encode (.cvtF32Bf16 a),
    decode_encode (.reserved2 a), decode_encode (.reserved3 a), decode_encode (.reserved4 a),
    decode_encode (.reserved5 a), decode_encode (.reserved6 a), decode_encode (.reserved7 a),
    decode_encode (.cvtBf16U8 a), decode_encode (.cvtBf16U16 a), decode_encode (.cvtBf16U32 a),
    decode_encode (.cvtBf16U64 a), decode_encode (.cvtBf16S8 a), decode_encode (.cvtBf16S16 a),
    decode_encode (.cvtBf16S32 a), decode_encode (.cvtBf16S64 a)⟩

/-- Settles O5: each written-out word is the encoding of its instruction. -/
theorem writtenOutWordsDecode : Obligations.WrittenOutWordsDecode :=
  ⟨decode_encode (.cvtBf16F32 0xFFFFFFFF3F800000#64),
    decode_encode (.cvtF32Bf16 0xABCDEF0123453F80#64),
    decode_encode (.reserved5 0x000000007F7F7FFF#64),
    decode_encode (.cvtBf16U32 0x0000000001010001#64),
    decode_encode (.cvtBf16S8 0x12345678ABCDEFFF#64)⟩

/-! ### The opcode table -/

/-- The row that the decoder and the word format give an op value: the decoded operation's mnemonic,
the op value over a zero operand, and the op field as the mask. -/
def opcodeRow (op : OpCode) : OpcodeRow :=
  ⟨(decode (transactionWord op 0#64)).mnemonic, transactionWord op 0#64, opMask⟩

/-- The opcode table is these rows in the order of the op values. -/
theorem opcodeTable_eq_map_opcodeRow :
    opcodeTable = (List.finRange 16).map fun k => opcodeRow (BitVec.ofFin k) := by
  decide

theorem exists_eq_opcodeRow_of_mem {r : OpcodeRow} (h : r ∈ opcodeTable) :
    ∃ op : OpCode, r = opcodeRow op := by
  rw [opcodeTable_eq_map_opcodeRow, List.mem_map] at h
  obtain ⟨k, -, rfl⟩ := h
  exact ⟨_, rfl⟩

/-- The mask keeps the op field and clears the operand field. -/
theorem and_opMask (T : TransactionWord) : T &&& opMask = transactionWord (opField T) 0#64 := by
  have hmask : opMask = 0xF#4 ++ 0#64 := by decide
  have hop : opField T &&& 0xF#4 = opField T := BitVec.and_allOnes
  have hT : opField T ++ operandField T = T := transactionWord_fields T
  calc T &&& opMask
      = (opField T ++ operandField T) &&& (0xF#4 ++ 0#64) := by rw [hT, hmask]
    _ = opField T ++ 0#64 := by rw [BitVec.and_append, hop, BitVec.and_zero]

theorem transactionWord_left_inj {op op' : OpCode} (a : OperandWord) :
    transactionWord op a = transactionWord op' a ↔ op = op' :=
  ⟨fun h => by simpa using congrArg opField h, fun h => h ▸ rfl⟩

/-- A word belongs to the row of an op value exactly when its op field is that value. -/
theorem matches_opcodeRow_iff (op : OpCode) (T : TransactionWord) :
    (opcodeRow op).matches T = true ↔ opField T = op := by
  simp only [OpcodeRow.matches, opcodeRow, beq_iff_eq, and_opMask, transactionWord_left_inj]

/-- An instruction's mnemonic is that of the row of its op value. -/
theorem mnemonic_eq_opcodeRow (i : Instr) : i.mnemonic = (opcodeRow i.op).mnemonic := by
  have hmap := operationMapByOpValue 0#64
  cases i <;> simp [opcodeRow, Instr.op, Instr.mnemonic, hmap]

/-- Different op values have different mnemonics. -/
theorem opcodeRow_mnemonic_inj {op op' : OpCode} :
    (opcodeRow op).mnemonic = (opcodeRow op').mnemonic ↔ op = op' := by
  revert op op'
  decide

/-- Settles O3: a word's row and its decoded operation's mnemonic are both decided by the op field. -/
theorem opcodeTableAgreesWithDecoder : Obligations.OpcodeTableAgreesWithDecoder := by
  refine ⟨rfl, fun T r hr => ?_⟩
  obtain ⟨op, rfl⟩ := exists_eq_opcodeRow_of_mem hr
  refine ⟨rfl, ?_⟩
  rw [matches_opcodeRow_iff, mnemonic_eq_opcodeRow, decode_op, opcodeRow_mnemonic_inj]
  exact eq_comm

/-! ### Operand widths and result placement -/

theorem operandWidth_of_reserved {op : OpCode} (h : isReservedOp op = true) :
    operandWidth op = 0 := by
  obtain ⟨h3, h0, h1⟩ := (isReservedOp_eq_true_iff op).mp h
  rw [operandWidth, h3, if_neg Bool.false_ne_true, if_neg h0, if_neg h1]

/-- Settles O40: the width of each op value by its row of R72, and none for a reserved one. -/
theorem operandWidths : Obligations.OperandWidths :=
  ⟨rfl, rfl, rfl, rfl, rfl, rfl, rfl, rfl, rfl, rfl, fun _ => operandWidth_of_reserved⟩

theorem isReservedOp_of_integer {op : OpCode} (h : op.getLsbD 3 = true) :
    isReservedOp op = false := by
  refine Bool.eq_false_iff.mpr fun hres => ?_
  have h3 := ((isReservedOp_eq_true_iff op).mp hres).1
  exact Bool.noConfusion (h3.symm.trans h)

/-- Completing an operation that is not reserved drives the datapath's `y` as its result. -/
theorem State.complete_of_not_reserved {op : OpCode} (h : isReservedOp op = false)
    (a : OperandWord) (s : State) : s.complete op a = s.driveResult (outputs op a).y := by
  rw [State.complete, State.driveResult, outputs_illegal_of_not_reserved h, observe, h,
    if_neg Bool.false_ne_true]

/-- Settles O38: an integer op value completes with the sub-block's result on `y`, and that result is
decided by the operand bits of its width. -/
theorem integerFieldDecode : Obligations.IntegerFieldDecode := by
  intro op a s h3
  refine ⟨?_, fun _ => intToBf16ViaF32_congr _⟩
  rw [exec_decode_transactionWord, State.complete_of_not_reserved (isReservedOp_of_integer h3),
    outputs_integer h3, State.driveResult16]

/-- The sub-block's port `sgn` is bit 2 of the op value. -/
theorem sgn_port_eq (op : OpCode) : (op.extractLsb' 2 1 == 1#1) = op.getLsbD 2 := by
  revert op
  decide

/-- An integer operation's outputs, by the width and the signedness of its op value. -/
theorem outputs_integer_eq_intToBf16 {op : OpCode} (h : op.getLsbD 3 = true) (a : OperandWord) :
    outputs op a = ⟨0#1, 0x0000#16 ++ intToBf16 a (operandWidth op) (op.getLsbD 2)⟩ := by
  rw [outputs_integer h, intToBf16ViaF32_eq, sgn_port_eq, operandWidth_of_integer h, illegalFlag,
    isReservedOp_of_integer h, if_neg Bool.false_ne_true]

/-- Settles O41: the ports hold the datapath's outputs, which each of the four cases places. -/
theorem resultPlacement : Obligations.ResultPlacement := by
  intro op a s t h
  rw [exec_decode_transactionWord] at h
  cases h
  rw [State.complete_y, State.complete_illegal]
  refine ⟨?narrowing, ?widening, ?integer, ?reserved⟩
  case narrowing =>
    rintro rfl
    simp [outputs_narrowing]
  case widening =>
    rintro rfl
    simp [outputs_widening]
  case integer =>
    intro h3
    simp [outputs_integer_eq_intToBf16 h3]
  case reserved =>
    intro hres
    simp [outputs_reserved hres]

/-! ### A step that presents a host line -/

@[simp] theorem lineOperand_lit (log : List Observation) (op : OpCode) (v : OperandWord) :
    lineOperand log ⟨op, .lit v⟩ = .ok v := rfl

/-- The operand the host drives for a name whose result is `y`: the low bits that the operation reads
(30_encoding.md R77), with zeros above them (log entry 7). -/
def resultOperand (op : OpCode) (y : BitVec 32) : OperandWord :=
  BitVec.ofNat 64 (y.toNat % 2 ^ operandWidth op)

theorem lineOperand_held_of_result {log : List Observation} {k : Nat} {y : BitVec 32} (op : OpCode)
    (h : log[k]? = some (.result y)) :
    lineOperand log ⟨op, .held (k + 1)⟩ = .ok (resultOperand op y) := by
  simp [lineOperand, heldObservation, h, resultOperand]

/-- The low bits of a result fit the operand port. -/
theorem toNat_resultOperand (op : OpCode) (y : BitVec 32) :
    (resultOperand op y).toNat = y.toNat % 2 ^ operandWidth op := by
  have hle := Nat.mod_le y.toNat (2 ^ operandWidth op)
  have hy := y.isLt
  rw [resultOperand, BitVec.toNat_ofNat, Nat.mod_eq_of_lt (by omega)]

/-- A 32-bit operation reads the whole result. -/
theorem operandF32_resultOperand (y : BitVec 32) : operandF32 (resultOperand 0x0#4 y) = y := by
  have hwidth : operandWidth 0x0#4 = 32 := rfl
  apply BitVec.eq_of_toNat_eq
  rw [operandF32_eq_operandInt, toNat_operandInt, toNat_resultOperand, hwidth, Nat.mod_mod,
    Nat.mod_eq_of_lt y.isLt]

/-- A 16-bit operation reads the low half of the result. -/
theorem operandBF16_resultOperand (y : BitVec 32) :
    operandBF16 (resultOperand 0x1#4 y) = low16 y := by
  have hwidth : operandWidth 0x1#4 = 16 := rfl
  apply BitVec.eq_of_toNat_eq
  rw [operandBF16_eq_operandInt, toNat_operandInt, toNat_resultOperand, hwidth, Nat.mod_mod, low16,
    BitVec.extractLsb'_toNat, Nat.shiftRight_zero]

/-- With a line waiting that has an operand value, a step drives the inputs with it, takes it off the
program and runs the transaction. -/
theorem step_of_line {s : State} {op : OpCode} {x : HostOperand} {rest : List Line}
    {a : OperandWord} (hprog : s.program = ⟨op, x⟩ :: rest)
    (ha : lineOperand s.log ⟨op, x⟩ = .ok a) :
    step s = exec (decode (transactionWord op a))
      { s with op := op, a := a, inputsDefined := true, program := rest } := by
  simp [step, presentNext, hprog, ha, State.driveInputs]

/-- With no line waiting, a step runs the transaction held on the defined inputs. -/
theorem step_of_held_inputs {s : State} (hprog : s.program = []) (hdef : s.inputsDefined = true) :
    step s = exec (decode (transactionWord s.op s.a)) s := by
  simp [step, presentNext, hprog, hdef]

/-- Settles O6: a literal is driven as it is, and held inputs are run as they stand. -/
theorem stepRunsDecodedTransaction : Obligations.StepRunsDecodedTransaction :=
  ⟨fun _ op v _ hprog => step_of_line hprog (lineOperand_lit _ op v),
    fun _ => step_of_held_inputs⟩

/-- Settles O7: the operand driven for the name is its result's low bits. -/
theorem stepPresentsEarlierResult : Obligations.StepPresentsEarlierResult := by
  intro s op k y rest hprog hlog
  exact ⟨_, toNat_resultOperand op y,
    step_of_line hprog (lineOperand_held_of_result op hlog)⟩

/-- A word placed in front of the program is the next transaction, with the program waiting behind. -/
theorem step_queueWord (s : State) (T : TransactionWord) :
    step (s.queueWord T) = exec (decode T)
      { s with op := opField T, a := operandField T, inputsDefined := true } := by
  rw [step_of_line (State.queueWord_program T s) (lineOperand_lit _ _ _), transactionWord_fields]
  rfl

/-- Only a number below `2^68` is read as an instruction, and as what its word decodes to. -/
theorem eq_decode_of_decodeTableWord {nbits w : Nat} {i : Instr}
    (h : decodeTableWord nbits w = some i) : i = decode (BitVec.ofNat 68 w) := by
  obtain hlt | hle := Nat.lt_or_ge w (2 ^ 68)
  · rw [decodeTableWord_of_lt hlt] at h
    exact (Option.some.inj h).symm
  · rw [decodeTableWord, decodeNumber_of_le hle] at h
    cases h

/-- Settles O10: the placed word's fields are the decoded instruction's op value and operand. -/
theorem stepRunsPlacedWord : Obligations.StepRunsPlacedWord := by
  intro s nbits w i h
  obtain rfl := eq_decode_of_decodeTableWord h
  rw [State.withFetchWord_eq, step_queueWord, decode_op, decode_operand]

/-! ### Pseudo-operations -/

theorem expandSource_rt32 (n : Nat) (x : HostOperand) :
    expandSource n (.rt32 x) = .ok [⟨0x0#4, x⟩, ⟨0x1#4, .held (n + 1)⟩] := rfl

theorem expandSource_rt16 (n : Nat) (p : HostOperand) :
    expandSource n (.rt16 p) = .ok [⟨0x1#4, p⟩, ⟨0x0#4, .held (n + 1)⟩] := rfl

/-- `cvt.bf16.iN` is the signed conversion of width `N`. -/
theorem expandSource_cvtI_of_some {width : Nat} {op : OpCode}
    (h : integerOp (.int true width) = some op) (n : Nat) (x : HostOperand) :
    expandSource n (.cvtI width x) = .ok [⟨op, x⟩] :=
  expandSource_cvtInt_of_some h n x

/-- Settles O53: the two round trips, and the synonym at the four admitted widths. -/
theorem pseudoOperationExpansions : Obligations.PseudoOperationExpansions := by
  intro n x
  exact ⟨expandSource_rt32 n x, expandSource_rt16 n x,
    expandSource_cvtI_of_some rfl n x, expandSource_cvtI_of_some rfl n x,
    expandSource_cvtI_of_some rfl n x, expandSource_cvtI_of_some rfl n x⟩

/-- A step on a line with an operand value answers the datapath's outputs, observes them, and leaves
the rest of the program. -/
theorem exists_step_of_line {s : State} {op : OpCode} {x : HostOperand} {rest : List Line}
    {a : OperandWord} (hprog : s.program = ⟨op, x⟩ :: rest)
    (ha : lineOperand s.log ⟨op, x⟩ = .ok a) :
    ∃ t : State, step s = .next t ∧ t.program = rest ∧ t.log = s.log ++ [observe op a] ∧
      t.illegal = (outputs op a).illegal ∧ t.y = (outputs op a).y := by
  rw [step_of_line hprog ha, exec_decode_transactionWord]
  exact ⟨_, rfl, rfl, rfl, rfl, rfl⟩

/-- Two lines, the second on the first's result: two steps answer the outputs of the second operation on
the first's `y`. -/
theorem exists_run_two_of_chain {s : State} {op op' : OpCode} {v : OperandWord} {rest : List Line}
    (hop : isReservedOp op = false)
    (hprog : s.program = ⟨op, .lit v⟩ :: ⟨op', .held (s.log.length + 1)⟩ :: rest) :
    ∃ t : State, run 2 s = .next t ∧ t.program = rest ∧
      t.illegal = (outputs op' (resultOperand op' (outputs op v).y)).illegal ∧
      t.y = (outputs op' (resultOperand op' (outputs op v).y)).y := by
  obtain ⟨t, ht, htprog, htlog, -, -⟩ := exists_step_of_line hprog (lineOperand_lit s.log op v)
  have hresult : t.log[s.log.length]? = some (.result (outputs op v).y) := by
    simp [htlog, observe, hop]
  obtain ⟨u, hu, huprog, -, hillegal, hy⟩ :=
    exists_step_of_line htprog (lineOperand_held_of_result op' hresult)
  exact ⟨u, (run_of_next ht).trans (run_of_next hu), huprog, hillegal, hy⟩

/-- Settles O54: the widening reads the placed narrow result from the low half of `y`, and the narrowing
reads the widened result whole. -/
theorem roundTripRuns : Obligations.RoundTripRuns := by
  intro s v rest ls
  constructor
  · rintro ⟨⟩ hprog
    obtain ⟨t, hrun, hrest, hillegal, hy⟩ := exists_run_two_of_chain (op := 0x0#4) rfl hprog
    refine ⟨t, hrun, hrest, hillegal, ?_⟩
    simp [hy, outputs_widening, operandBF16_resultOperand, outputs_narrowing]
  · rintro ⟨⟩ hprog
    obtain ⟨t, hrun, hrest, hillegal, hy⟩ := exists_run_two_of_chain (op := 0x1#4) rfl hprog
    refine ⟨t, hrun, hrest, hillegal, ?_⟩
    simp [hy, outputs_widening, operandF32_resultOperand, outputs_narrowing]

end Sys2Proof.Machine
end

section
/-! PROOFS. The obligations of 40_narrowing.md: the result of `cvt.bf16.f32` in each case (R100, R103 to
R109), the rounding-bias datapath (R110), exactness and Narrow of Widen (R111 to R114), and the nearest
value (R101). -/

namespace Sys2Proof.Machine

/-! ### Fields of a pattern as numbers -/

theorem toNat_high16 (x : F32) : (high16 x).toNat = x.toNat / 2 ^ 16 := by
  have hx := x.isLt
  rw [high16, BitVec.extractLsb'_toNat, Nat.shiftRight_eq_div_pow]
  omega

theorem toNat_low16 (x : F32) : (low16 x).toNat = x.toNat % 2 ^ 16 := by
  rw [low16, BitVec.extractLsb'_toNat, Nat.shiftRight_zero]

theorem toNat_exponent32 (x : F32) : (exponent32 x).toNat = x.toNat / 2 ^ 23 % 2 ^ 8 := by
  rw [exponent32, BitVec.extractLsb'_toNat, Nat.shiftRight_eq_div_pow]

theorem toNat_mantissa32 (x : F32) : (mantissa32 x).toNat = x.toNat % 2 ^ 23 := by
  rw [mantissa32, BitVec.extractLsb'_toNat, Nat.shiftRight_zero]

/-- A bit of a pattern, as a quotient's parity. -/
theorem getLsbD_eq_decide {w : Nat} (x : BitVec w) (i : Nat) :
    x.getLsbD i = decide (x.toNat / 2 ^ i % 2 = 1) := by
  rw [← BitVec.testBit_toNat, Nat.testBit_eq_decide_div_mod_eq]

theorem isNormal32_iff_toNat (x : F32) :
    isNormal32 x = true ↔ 0x00800000 ≤ x.toNat % 2 ^ 31 ∧ x.toNat % 2 ^ 31 < 0x7F800000 := by
  simp only [isNormal32, Bool.and_eq_true, bne_iff_ne, ne_eq, ← BitVec.toNat_inj,
    toNat_exponent32, BitVec.toNat_ofNat]
  omega

theorem isInfinite32_iff_toNat (x : F32) :
    isInfinite32 x = true ↔ x.toNat % 2 ^ 31 = 0x7F800000 := by
  simp only [isInfinite32, Bool.and_eq_true, beq_iff_eq, ← BitVec.toNat_inj,
    toNat_exponent32, toNat_mantissa32, BitVec.toNat_ofNat]
  omega

theorem isInfinite16_iff_toNat (q : BF16) :
    isInfinite16 q = true ↔ q.toNat % 2 ^ 15 = 0x7F80 := by
  simp only [isInfinite16, Bool.and_eq_true, beq_iff_eq, ← BitVec.toNat_inj,
    toNat_exponent16, toNat_mantissa16, BitVec.toNat_ofNat]
  omega

/-! ### The sign and the rounding -/

theorem sign32_eq_ofBool (x : F32) : sign32 x = BitVec.ofBool (x.getLsbD 31) := by
  ext i hi
  obtain rfl : i = 0 := by omega
  simp [sign32]

theorem sign16_eq_ofBool (q : BF16) : sign16 q = BitVec.ofBool (q.getLsbD 15) := by
  ext i hi
  obtain rfl : i = 0 := by omega
  simp [sign16]

/-- The two signed zeros a flush can give (40_narrowing.md R105). -/
theorem sign32_append_zero (x : F32) :
    sign32 x ++ 0#15 = if x.getLsbD 31 then 0x8000#16 else 0x0000#16 := by
  rw [sign32_eq_ofBool]
  cases x.getLsbD 31 <;> rfl

theorem narrowRoundsUp_iff (x : F32) :
    narrowRoundsUp x = true ↔
      0x8000#16 < low16 x ∨ (low16 x = 0x8000#16 ∧ (high16 x).getLsbD 0 = true) := by
  simp [narrowRoundsUp]

theorem narrow_of_roundsUp {x : F32} (hx : isNormal32 x = true) (h : narrowRoundsUp x = true) :
    narrow x = high16 x + 0x0001#16 := by
  rw [narrow_of_isNormal32 hx, if_pos h]

theorem narrow_of_not_roundsUp {x : F32} (hx : isNormal32 x = true)
    (h : ¬ narrowRoundsUp x = true) : narrow x = high16 x := by
  rw [narrow_of_isNormal32 hx, if_neg h, BitVec.add_zero]

/-- Rounding up is a carry of R110's bias out of the low half. -/
theorem narrowRoundsUp_iff_toNat (x : F32) :
    narrowRoundsUp x = true ↔
      0x10000 ≤ x.toNat % 2 ^ 16 + 0x7FFF + x.toNat / 2 ^ 16 % 2 := by
  simp only [narrowRoundsUp_iff, getLsbD_eq_decide, BitVec.lt_def, ← BitVec.toNat_inj, toNat_low16,
    toNat_high16, BitVec.toNat_ofNat, decide_eq_true_eq]
  omega

/-- Rounding a normal is adding R110's bias to the whole pattern and dropping the low half. -/
theorem toNat_narrow_of_isNormal32 {x : F32} (h : isNormal32 x = true) :
    (narrow x).toNat = (x.toNat + 0x7FFF + x.toNat / 2 ^ 16 % 2) / 2 ^ 16 := by
  have hx := x.isLt
  have hexp := (isNormal32_iff_toNat x).mp h
  have hround := narrowRoundsUp_iff_toNat x
  have hdivmod := Nat.div_add_mod x.toNat (2 ^ 16)
  have hlow : x.toNat % 2 ^ 16 < 2 ^ 16 := Nat.mod_lt _ (by decide)
  by_cases hup : narrowRoundsUp x = true
  · have hsum := hround.mp hup
    have hhigh : (high16 x).toNat + 1 < 2 ^ 16 := by
      rw [toNat_high16]
      omega
    rw [narrow_of_roundsUp h hup, BitVec.toNat_add_of_lt hhigh, toNat_high16, BitVec.toNat_ofNat]
    generalize x.toNat / 2 ^ 16 = hi, x.toNat % 2 ^ 16 = lo at *
    omega
  · have hsum := mt hround.mpr hup
    rw [narrow_of_not_roundsUp h hup, toNat_high16]
    omega

/-! ### A pattern as its two halves -/

theorem toNat_append16 (hi lo : BitVec 16) :
    (hi ++ lo).toNat = hi.toNat * 2 ^ 16 + lo.toNat := by
  rw [BitVec.toNat_append, ← Nat.shiftLeft_add_eq_or_of_lt lo.isLt, Nat.shiftLeft_eq]

theorem high16_append_low16 (x : F32) : high16 x ++ low16 x = x :=
  (BitVec.extractLsb'_append_extractLsb'_eq_extractLsb' rfl).trans BitVec.extractLsb'_eq_self

@[simp] theorem high16_widen (q : BF16) : high16 (widen q) = q := high16_append q 0x0000#16

@[simp] theorem low16_widen (q : BF16) : low16 (widen q) = 0x0000#16 := low16_append q 0x0000#16

theorem widen_high16 {x : F32} (h : low16 x = 0x0000#16) : widen (high16 x) = x := by
  rw [widen, ← h, high16_append_low16]

/-- A pattern between two patterns of one high half has that high half too. -/
theorem high16_eq_of_between {x : F32} {hi lo lo' : BitVec 16} (h : hi ++ lo ≤ x)
    (h' : x ≤ hi ++ lo') : high16 x = hi := by
  rw [BitVec.le_def, toNat_append16] at h h'
  have hlo' := lo'.isLt
  apply BitVec.eq_of_toNat_eq
  rw [toNat_high16]
  omega

theorem getLsbD_high16 (x : F32) {i : Nat} (hi : i < 16) :
    (high16 x).getLsbD i = x.getLsbD (16 + i) := by
  rw [high16, BitVec.getLsbD_extractLsb', decide_eq_true hi, Bool.true_and]

/-- A bf16 pattern is its sign and its magnitude. -/
theorem eq_of_sign_of_magnitude {q p : BF16} (hsign : q.getLsbD 15 = p.getLsbD 15)
    (hmag : q.toNat % 2 ^ 15 = p.toNat % 2 ^ 15) : q = p := by
  have hq := q.isLt
  have hp := p.isLt
  rw [getLsbD_eq_decide, getLsbD_eq_decide, decide_eq_decide] at hsign
  apply BitVec.eq_of_toNat_eq
  omega

/-- A pattern of known magnitude is one of two, by its sign. -/
theorem eq_ite_of_sign_of_magnitude {q positive negative : BF16} {s : Bool}
    (hsign : q.getLsbD 15 = s)
    (hpos : positive.getLsbD 15 = false) (hneg : negative.getLsbD 15 = true)
    (hmag : q.toNat % 2 ^ 15 = positive.toNat % 2 ^ 15)
    (hmag' : negative.toNat % 2 ^ 15 = positive.toNat % 2 ^ 15) :
    q = if s then negative else positive := by
  cases s
  · exact eq_of_sign_of_magnitude (hsign.trans hpos.symm) hmag
  · exact eq_of_sign_of_magnitude (hsign.trans hneg.symm) (hmag.trans hmag'.symm)

/-! ### Classes of a widened pattern -/

/-- Widening moves every bit up by 16. -/
theorem getLsbD_widen (q : BF16) (i : Nat) : (widen q).getLsbD (16 + i) = q.getLsbD i := by
  rw [widen, BitVec.getLsbD_append, if_neg (by omega), Nat.add_sub_cancel_left]

@[simp] theorem sign32_widen (q : BF16) : sign32 (widen q) = sign16 q := by
  rw [sign32_eq_ofBool, sign16_eq_ofBool, getLsbD_widen q 15]

@[simp] theorem exponent32_widen (q : BF16) : exponent32 (widen q) = exponent16 q := by
  rw [← exponent16_high16, high16_widen]

@[simp] theorem toNat_mantissa32_widen (q : BF16) :
    (mantissa32 (widen q)).toNat = (mantissa16 q).toNat * 2 ^ 16 := by
  rw [toNat_mantissa32, toNat_mantissa16, widen, toNat_append16, BitVec.toNat_ofNat]
  omega

theorem mantissa32_widen_eq_zero_iff (q : BF16) :
    mantissa32 (widen q) = 0#23 ↔ mantissa16 q = 0#7 := by
  simp only [← BitVec.toNat_inj, toNat_mantissa32_widen, BitVec.toNat_ofNat]
  omega

theorem quietBit_mantissa32_widen (q : BF16) :
    (mantissa32 (widen q)).getLsbD 22 = (mantissa16 q).getLsbD 6 := by
  rw [mantissa32, mantissa16, BitVec.getLsbD_extractLsb', BitVec.getLsbD_extractLsb', Nat.zero_add,
    getLsbD_widen q 6]
  rfl

@[simp] theorem isNaN32_widen (q : BF16) : isNaN32 (widen q) = isNaN16 q := by
  rw [Bool.eq_iff_iff]
  simp [isNaN32, isNaN16, mantissa32_widen_eq_zero_iff]

@[simp] theorem isSignaling32_widen (q : BF16) : isSignaling32 (widen q) = isSignaling16 q := by
  rw [isSignaling32, isSignaling16, isNaN32_widen, quietBit_mantissa32_widen]

@[simp] theorem isInfinite32_widen (q : BF16) : isInfinite32 (widen q) = isInfinite16 q := by
  rw [Bool.eq_iff_iff]
  simp [isInfinite32, isInfinite16, mantissa32_widen_eq_zero_iff]

@[simp] theorem isZero32_widen (q : BF16) : isZero32 (widen q) = isZero16 q := by
  rw [Bool.eq_iff_iff]
  simp [isZero32, isZero16, mantissa32_widen_eq_zero_iff]

@[simp] theorem isNormal32_widen (q : BF16) : isNormal32 (widen q) = isNormal16 q := by
  rw [isNormal32, isNormal16, exponent32_widen]

/-- The discarded bits are part of the mantissa. -/
theorem low16_eq_zero_of_mantissa32 {x : F32} (h : mantissa32 x = 0#23) : low16 x = 0x0000#16 := by
  simp only [← BitVec.toNat_inj, toNat_mantissa32, toNat_low16, BitVec.toNat_ofNat] at h ⊢
  omega

/-! ### The quiet bit (40_narrowing.md R103) -/

theorem getLsbD_quiet_bit (i : Nat) : (0x0040#16).getLsbD i = decide (i = 6) := by
  have htwoPow : 0x0040#16 = BitVec.twoPow 16 6 := rfl
  rw [htwoPow, BitVec.getLsbD_twoPow]
  simp [eq_comm]

theorem or_quiet_bit_of_set {q : BF16} (h : q.getLsbD 6 = true) : q ||| 0x0040#16 = q := by
  apply BitVec.eq_of_getLsbD_eq
  intro i _
  rw [BitVec.getLsbD_or, getLsbD_quiet_bit]
  by_cases hi : i = 6
  · simp [hi, h]
  · simp [hi]

theorem or_quiet_bit_of_clear {q : BF16} (h : q.getLsbD 6 = false) :
    q ||| 0x0040#16 = q + 0x0040#16 := by
  refine (BitVec.add_eq_or_of_and_eq_zero q 0x0040#16 ?_).symm
  apply BitVec.eq_of_getLsbD_eq
  intro i _
  rw [BitVec.getLsbD_and, getLsbD_quiet_bit]
  by_cases hi : i = 6
  · rw [hi, h]
    rfl
  · simp [hi]

theorem quietBit_mantissa16 (q : BF16) : (mantissa16 q).getLsbD 6 = q.getLsbD 6 := by
  simp [mantissa16]

theorem isQuiet16_iff (q : BF16) :
    isQuiet16 q = true ↔ exponent16 q = 0xFF#8 ∧ q.getLsbD 6 = true := by
  constructor
  · intro h
    simp only [isQuiet16, isNaN16, quietBit_mantissa16, Bool.and_eq_true, beq_iff_eq] at h
    obtain ⟨⟨he, -⟩, hq⟩ := h
    exact ⟨he, hq⟩
  · rintro ⟨he, hq⟩
    exact isQuiet16_of_bit6 he ((quietBit_mantissa16 q).trans hq)

/-! ### The operation and its operand port -/

theorem exec_cvtBf16F32 (a : OperandWord) (s : State) :
    exec (.cvtBf16F32 a) s = .next (s.driveResult16 (narrow (operandF32 a))) := rfl

theorem getLsbD_operandF32 (a : OperandWord) {i : Nat} (hi : i < 32) :
    (operandF32 a).getLsbD i = a.getLsbD i := by
  rw [operandF32, BitVec.getLsbD_extractLsb', decide_eq_true hi, Bool.true_and, Nat.zero_add]

/-- A field of the operand is a field of the port. -/
theorem extractLsb'_operandF32 (a : OperandWord) {start len : Nat} (h : start + len ≤ 32) :
    (operandF32 a).extractLsb' start len = a.extractLsb' start len := by
  rw [operandF32, extractLsb'_extractLsb' a h, Nat.zero_add]

/-- Settles O11: `Narrow`'s tests on its operand, read on the bits of the port. -/
theorem narrowOperationResult : Obligations.NarrowOperationResult := by
  intro a s
  have hhi : high16 (operandF32 a) = a.extractLsb' 16 16 := extractLsb'_operandF32 a (by decide)
  have hlo : low16 (operandF32 a) = a.extractLsb' 0 16 := extractLsb'_operandF32 a (by decide)
  have he : exponent32 (operandF32 a) = a.extractLsb' 23 8 := extractLsb'_operandF32 a (by decide)
  have hf : mantissa32 (operandF32 a) = a.extractLsb' 0 23 := extractLsb'_operandF32 a (by decide)
  have hround : high16 (operandF32 a) +
        (if narrowRoundsUp (operandF32 a) then 0x0001#16 else 0x0000#16) =
      if 0x8000#16 < low16 (operandF32 a) ∨
          (low16 (operandF32 a) = 0x8000#16 ∧ (high16 (operandF32 a)).getLsbD 0 = true)
        then high16 (operandF32 a) + 0x0001#16 else high16 (operandF32 a) := by
    simp only [narrowRoundsUp_iff, apply_ite (high16 (operandF32 a) + ·), BitVec.add_zero]
  dsimp only
  rw [exec_cvtBf16F32, narrow, hround, sign32_append_zero, getLsbD_operandF32 a (by decide), hhi,
    hlo, he, hf]

/-! ### The class of the result, by the class of the input -/

theorem isQuiet16_narrow_of_isNaN32 {x : F32} (h : isNaN32 x = true) :
    isQuiet16 (narrow x) = true := by
  rw [narrow_of_isNaN32 h]
  apply isQuiet16_or_quiet_bit
  simp only [isNaN32, Bool.and_eq_true, beq_iff_eq] at h
  rw [exponent16_high16, h.1]

theorem isInfinite16_narrow_of_isInfinite32 {x : F32} (h : isInfinite32 x = true) :
    isInfinite16 (narrow x) = true := by
  rw [isInfinite32_iff_toNat] at h
  rw [narrow_of_isInfinite32 ((isInfinite32_iff_toNat x).mpr h), isInfinite16_iff_toNat,
    toNat_high16]
  omega

theorem isZero16_narrow_of_exponent_zero {x : F32} (h : exponent32 x = 0x00#8) :
    isZero16 (narrow x) = true := by
  rw [narrow_of_exponent_zero h]
  exact isZero16_sign_append _

theorem isNormal16_or_isInfinite16_narrow {x : F32} (h : isNormal32 x = true) :
    isNormal16 (narrow x) = true ∨ isInfinite16 (narrow x) = true := by
  have hhigh : isNormal16 (high16 x) = true := by
    rwa [isNormal16, exponent16_high16]
  by_cases hup : narrowRoundsUp x = true
  · rw [narrow_of_roundsUp h hup]
    exact isNormal16_or_isInfinite16_add_one hhigh
  · rw [narrow_of_not_roundsUp h hup]
    exact .inl hhigh

theorem isNaN16_of_isQuiet16 {q : BF16} (h : isQuiet16 q = true) : isNaN16 q = true :=
  (Bool.and_eq_true_iff.mp h).1

/-- A pattern with an exponent below 0xFF or a mantissa of 0 is no NaN. -/
theorem isNaN16_eq_false {q : BF16}
    (h : isZero16 q = true ∨ isNormal16 q = true ∨ isInfinite16 q = true) : isNaN16 q = false := by
  obtain h | h | h := h
  · simp_all [isNaN16, isZero16]
  · simp_all [isNaN16, isNormal16]
  · simp_all [isNaN16, isInfinite16]

theorem isNaN32_eq_false {x : F32}
    (h : isInfinite32 x = true ∨ exponent32 x = 0x00#8 ∨ isNormal32 x = true) :
    isNaN32 x = false := by
  obtain h | h | h := h
  · simp_all [isNaN32, isInfinite32]
  · simp_all [isNaN32]
  · simp_all [isNaN32, isNormal32]

/-- Narrowing keeps NaN-ness. -/
theorem isNaN16_narrow (x : F32) : isNaN16 (narrow x) = isNaN32 x := by
  obtain hnan | hinf | hzero | hnormal := narrow_classes x
  · rw [hnan, isNaN16_of_isQuiet16 (isQuiet16_narrow_of_isNaN32 hnan)]
  · rw [isNaN32_eq_false (.inl hinf),
      isNaN16_eq_false (.inr (.inr (isInfinite16_narrow_of_isInfinite32 hinf)))]
  · rw [isNaN32_eq_false (.inr (.inl hzero)),
      isNaN16_eq_false (.inl (isZero16_narrow_of_exponent_zero hzero))]
  · rw [isNaN32_eq_false (.inr (.inr hnormal)),
      isNaN16_eq_false (.inr (isNormal16_or_isInfinite16_narrow hnormal))]

theorem not_isSubnormal16_narrow (x : F32) : isSubnormal16 (narrow x) = false :=
  ((isNarrowClass_iff _).mp (isNarrowClass_narrow x)).1

theorem not_isSignaling16_narrow (x : F32) : isSignaling16 (narrow x) = false :=
  ((isNarrowClass_iff _).mp (isNarrowClass_narrow x)).2

/-- A nonzero exponent stays nonzero. -/
theorem not_isZero16_narrow {x : F32} (h : exponent32 x ≠ 0x00#8) : isZero16 (narrow x) = false := by
  obtain hnan | hinf | hzero | hnormal := narrow_classes x
  · obtain ⟨he, -⟩ := (isQuiet16_iff _).mp (isQuiet16_narrow_of_isNaN32 hnan)
    simp [isZero16, he]
  · have hresult := isInfinite16_narrow_of_isInfinite32 hinf
    simp_all [isZero16, isInfinite16]
  · exact absurd hzero h
  · obtain hresult | hresult := isNormal16_or_isInfinite16_narrow hnormal
    · simp_all [isZero16, isNormal16]
    · simp_all [isZero16, isInfinite16]

/-- Settles O17: no class of result but the zeros has exponent 0, and only exponent 0 gives a zero. -/
theorem narrowNormalNeverUnderflows : Obligations.NarrowNormalNeverUnderflows :=
  ⟨fun x h => ⟨not_isZero16_narrow h, not_isSubnormal16_narrow x⟩,
    fun _ h => isZero16_narrow_of_exponent_zero h⟩

/-! ### The sign (40_narrowing.md R109) -/

/-- In the normal case the rounding carry stops below the sign bit (40_narrowing.md R109). -/
theorem narrow_sign (x : F32) : (narrow x).getLsbD 15 = x.getLsbD 31 := by
  obtain hnan | hinf | hzero | hnormal := narrow_classes x
  · rw [narrow_of_isNaN32 hnan, BitVec.getLsbD_or, getLsbD_high16 x (by decide), getLsbD_quiet_bit]
    simp
  · rw [narrow_of_isInfinite32 hinf, getLsbD_high16 x (by decide)]
  · rw [narrow_of_exponent_zero hzero, sign32_append_zero]
    cases x.getLsbD 31 <;> rfl
  · have hx := x.isLt
    have hexp := (isNormal32_iff_toNat x).mp hnormal
    have hsign : (x.toNat + 0x7FFF + x.toNat / 2 ^ 16 % 2) / (2 ^ 16 * 2 ^ 15) =
        x.toNat / 2 ^ 31 := by omega
    rw [getLsbD_eq_decide, getLsbD_eq_decide, toNat_narrow_of_isNormal32 hnormal,
      Nat.div_div_eq_div_mul, hsign]

/-- Settles O18: the sign is kept in each of the four cases. -/
theorem narrowKeepsSign : Obligations.NarrowKeepsSign := narrow_sign

/-! ### NaNs (40_narrowing.md R103) -/

/-- Settles O12: the bits of the high half with the quiet bit set, and the two ranges by their common
high half; NaN-ness and quietness by the class of the result. -/
theorem narrowNaNResult : Obligations.NarrowNaNResult := by
  refine ⟨fun a s hnan => ?_, fun x => ⟨not_isSignaling16_narrow x, isNaN16_narrow x⟩⟩
  have hnarrow := narrow_of_isNaN32 hnan
  have hquiet := isQuiet16_narrow_of_isNaN32 hnan
  rw [hnarrow, isQuiet16_iff] at hquiet
  obtain ⟨hexp, hbit⟩ := hquiet
  have hbit6 : (high16 (operandF32 a)).getLsbD 6 = a.getLsbD 22 := by
    rw [getLsbD_high16 _ (by decide), getLsbD_operandF32 a (by decide)]
  refine ⟨_, by rw [exec_cvtBf16F32, hnarrow], rfl, ?sign, hexp, hbit, ?payload, ?quiet, ?signaling,
    ?positive, ?negative⟩
  case sign =>
    rw [← hnarrow, narrow_sign, getLsbD_operandF32 a (by decide)]
  case payload =>
    have hlow : (0x0040#16).extractLsb' 0 6 = 0#6 := rfl
    rw [BitVec.extractLsb'_or, hlow, BitVec.or_zero, high16, extractLsb'_extractLsb' _ (by decide),
      extractLsb'_operandF32 a (by decide)]
  case quiet =>
    intro h
    exact or_quiet_bit_of_set (hbit6.trans h)
  case signaling =>
    intro h
    exact or_quiet_bit_of_clear (hbit6.trans h)
  case positive =>
    intro hlo hhi
    rw [high16_eq_of_between (hi := 0x7F80#16) (lo := 0x0001#16) (lo' := 0xFFFF#16) hlo hhi]
    rfl
  case negative =>
    intro hlo hhi
    rw [high16_eq_of_between (hi := 0xFF80#16) (lo := 0x0001#16) (lo' := 0xFFFF#16) hlo hhi]
    rfl

/-! ### Infinities, zeros and denormals (40_narrowing.md R104, R105) -/

/-- An infinity's high half is decided by its sign. -/
theorem high16_of_isInfinite32 {x : F32} (h : isInfinite32 x = true) :
    high16 x = if x.getLsbD 31 then 0xFF80#16 else 0x7F80#16 := by
  rw [isInfinite32_iff_toNat] at h
  refine eq_ite_of_sign_of_magnitude (getLsbD_high16 x (by decide)) rfl rfl ?_ rfl
  rw [toNat_high16, BitVec.toNat_ofNat]
  omega

/-- Settles O13: the infinity case, and the high half by the sign. -/
theorem narrowInfinityResult : Obligations.NarrowInfinityResult := by
  intro a s hinf
  have hexec : exec (.cvtBf16F32 a) s = .next (s.driveResult16 (high16 (operandF32 a))) := by
    rw [exec_cvtBf16F32, narrow_of_isInfinite32 hinf]
  have hhigh := high16_of_isInfinite32 hinf
  rw [getLsbD_operandF32 a (by decide)] at hhigh
  refine ⟨hexec, fun hsign => ?_, fun hsign => ?_⟩
  · rw [hexec, hhigh, hsign]
    rfl
  · rw [hexec, hhigh, hsign]
    rfl

/-- Settles O14: exponent 0 gives the sign over zeros, whatever the mantissa. -/
theorem narrowFlushesZeroAndDenormal : Obligations.NarrowFlushesZeroAndDenormal := by
  intro a s h
  rw [exec_cvtBf16F32, narrow_of_exponent_zero h, sign32_append_zero,
    getLsbD_operandF32 a (by decide)]

/-! ### Normals (40_narrowing.md R106) -/

/-- Incrementing a full mantissa carries into the exponent. -/
theorem add_one_of_mantissa16_full {q : BF16} (h : mantissa16 q = 0x7F#7) :
    mantissa16 (q + 1#16) = 0#7 ∧ exponent16 (q + 1#16) = exponent16 q + 1#8 := by
  simp only [← BitVec.toNat_inj, toNat_mantissa16, toNat_exponent16, BitVec.toNat_add,
    BitVec.toNat_ofNat] at h ⊢
  omega

theorem exponent16_add_one_of_mantissa16_not_full {q : BF16} (h : mantissa16 q ≠ 0x7F#7) :
    exponent16 (q + 1#16) = exponent16 q := by
  simp only [ne_eq, ← BitVec.toNat_inj, toNat_mantissa16, toNat_exponent16, BitVec.toNat_add,
    BitVec.toNat_ofNat] at h ⊢
  omega

/-- Settles O15: the discarded bits choose the high half or its increment, and a full mantissa is where
the increment carries. -/
theorem narrowNormalResult : Obligations.NarrowNormalResult := by
  intro a s h
  refine ⟨_, exec_cvtBf16F32 a s, ?_⟩
  generalize operandF32 a = x at h ⊢
  dsimp only
  have hup := narrow_of_roundsUp h
  have hstay := narrow_of_not_roundsUp h
  rw [narrowRoundsUp_iff] at hup hstay
  refine ⟨?below, ?tieEven, ?above, ?tieOdd, ?sign, ?carry, ?noCarry⟩
  case below =>
    intro hlo
    refine hstay ?_
    rintro (hgt | ⟨heq, -⟩)
    · bv_omega
    · bv_omega
  case tieEven =>
    intro hlo heven
    refine hstay ?_
    rintro (hgt | ⟨-, hodd⟩)
    · exact absurd hgt (by rw [hlo]; decide)
    · rw [heven] at hodd
      cases hodd
  case above =>
    intro hlo
    exact hup (.inl hlo)
  case tieOdd =>
    intro hlo hodd
    exact hup (.inr ⟨hlo, hodd⟩)
  case sign => rw [sign16_eq_ofBool, sign32_eq_ofBool, narrow_sign]
  case carry =>
    intro hq hfull
    rw [hq, ← exponent16_high16]
    exact add_one_of_mantissa16_full hfull
  case noCarry =>
    rintro (hq | hnotFull)
    · rw [hq, exponent16_high16]
    · by_cases hround : narrowRoundsUp x = true
      · rw [narrow_of_roundsUp h hround, exponent16_add_one_of_mantissa16_not_full hnotFull,
          exponent16_high16]
      · rw [narrow_of_not_roundsUp h hround, exponent16_high16]

/-! ### The rounding-bias datapath (40_narrowing.md R110) -/

/-- R110's sum does not wrap on a pattern of magnitude up to infinity's. -/
theorem toNat_high16_biasSum {x : F32} (h : x.toNat % 2 ^ 31 ≤ 0x7F800000) :
    (high16 (x + 0x00007FFF#32 + (x.extractLsb' 16 1).setWidth 32)).toNat =
      (x.toNat + 0x7FFF + x.toNat / 2 ^ 16 % 2) / 2 ^ 16 := by
  have hx := x.isLt
  have hbit : ((x.extractLsb' 16 1).setWidth 32).toNat = x.toNat / 2 ^ 16 % 2 := by
    rw [BitVec.toNat_setWidth, BitVec.extractLsb'_toNat, Nat.shiftRight_eq_div_pow]
    omega
  rw [toNat_high16, BitVec.toNat_add, BitVec.toNat_add, hbit, BitVec.toNat_ofNat]
  congr 1
  omega

theorem toNat_narrow_of_isInfinite32 {x : F32} (h : isInfinite32 x = true) :
    (narrow x).toNat = (x.toNat + 0x7FFF + x.toNat / 2 ^ 16 % 2) / 2 ^ 16 := by
  rw [narrow_of_isInfinite32 h, toNat_high16]
  rw [isInfinite32_iff_toNat] at h
  omega

/-- Settles O19: both sides are the biased pattern without its low half; the largest NaN wraps to -0, and
a denormal near the smallest normal is rounded up to it. -/
theorem narrowEqualsBiasDatapath : Obligations.NarrowEqualsBiasDatapath := by
  refine ⟨fun x hx => BitVec.eq_of_toNat_eq ?_, ⟨0x7FFFFFFF#32, by decide, by decide⟩,
    ⟨0x007F8000#32, by decide, by decide⟩⟩
  obtain hnormal | hinf := hx
  · have hmag := (isNormal32_iff_toNat x).mp hnormal
    exact (toNat_narrow_of_isNormal32 hnormal).trans (toNat_high16_biasSum (by omega)).symm
  · have hmag := (isInfinite32_iff_toNat x).mp hinf
    exact (toNat_narrow_of_isInfinite32 hinf).trans (toNat_high16_biasSum (by omega)).symm

/-! ### The overflow threshold (40_narrowing.md R107) -/

/-- Narrowing a normal rounds its magnitude to nearest even, as a number. -/
theorem narrow_magnitude {x : F32} (h : isNormal32 x = true) :
    (narrow x).toNat % 2 ^ 15 =
      (x.toNat % 2 ^ 31 + 0x7FFF + x.toNat / 2 ^ 16 % 2) / 2 ^ 16 := by
  have hmag := (isNormal32_iff_toNat x).mp h
  have hsplit : x.toNat + 0x7FFF + x.toNat / 2 ^ 16 % 2 =
      x.toNat % 2 ^ 31 + 0x7FFF + x.toNat / 2 ^ 16 % 2 + 2 ^ 16 * (x.toNat / 2 ^ 31 * 2 ^ 15) := by
    omega
  rw [toNat_narrow_of_isNormal32 h, hsplit, Nat.add_mul_div_left _ _ (by decide),
    Nat.add_mul_mod_self_right, Nat.mod_eq_of_lt (by omega)]

/-- The carry out of the largest finite exponent. -/
theorem isInfinite16_carry {x : F32} (he : exponent32 x = 254#8)
    (hfull : mantissa16 (high16 x) = 0x7F#7) : isInfinite16 (high16 x + 1#16) = true := by
  obtain ⟨hmantissa, hexponent⟩ := add_one_of_mantissa16_full hfull
  rw [isInfinite16, hmantissa, hexponent, exponent16_high16, he]
  rfl

/-- BF16_MAX as an f32 value (00_scope.md R11). -/
theorem real?_val32_bf16Max :
    (val32 0x7F7F0000#32).real? = some ((2 - 2 ^ (-7 : ℤ)) * 2 ^ (127 : ℤ)) := by
  have hfields : val32 0x7F7F0000#32 = fieldsValue 23 false 254 0x7F0000 := rfl
  rw [hfields, fieldsValue_of_normal false (by decide) (by decide), FpValue.real?_finite_false]
  norm_num

/-- Settles O16: the rounded magnitude reaches infinity's exactly from 0x7F7F8000 on. -/
theorem narrowOverflowThreshold : Obligations.NarrowOverflowThreshold := by
  refine ⟨fun x h => ?_, by decide, by decide, by decide, by decide,
    ⟨_, real?_val32_bf16Max, by norm_num⟩⟩
  have hmag := (isNormal32_iff_toNat x).mp h
  have hnarrow := narrow_magnitude h
  have hmagnitude : (x.extractLsb' 0 31).toNat = x.toNat % 2 ^ 31 := by
    rw [BitVec.extractLsb'_toNat, Nat.shiftRight_zero]
  dsimp only
  rw [BitVec.le_def, BitVec.le_def, BitVec.le_def, BitVec.lt_def, hmagnitude]
  simp only [BitVec.toNat_ofNat]
  refine ⟨?carry, ?overflow, ?largest, ?below⟩
  case carry =>
    intro he hfull hround
    rw [hround]
    exact isInfinite16_carry he hfull
  case overflow =>
    intro hover
    refine eq_ite_of_sign_of_magnitude (narrow_sign x) rfl rfl ?_ rfl
    rw [hnarrow, BitVec.toNat_ofNat]
    omega
  case largest =>
    intro hmin hmax
    refine eq_ite_of_sign_of_magnitude (narrow_sign x) rfl rfl ?_ rfl
    rw [hnarrow, BitVec.toNat_ofNat]
    omega
  case below =>
    intro hbelow
    rw [Bool.eq_false_iff, ne_eq, isInfinite16_iff_toNat, hnarrow]
    omega

/-! ### Narrow of Widen (40_narrowing.md R113, R114) -/

theorem not_narrowRoundsUp_widen (q : BF16) : ¬ narrowRoundsUp (widen q) = true := by
  rw [narrowRoundsUp_iff, low16_widen]
  rintro (h | ⟨h, -⟩)
  · exact absurd h (by decide)
  · exact absurd h (by decide)

theorem sign16_append_of_isZero16 {q : BF16} (h : isZero16 q = true) : sign16 q ++ 0#15 = q := by
  simp only [isZero16, Bool.and_eq_true, beq_iff_eq] at h
  obtain ⟨he, hm⟩ := h
  have hfields := fields16_append q
  rw [he, hm] at hfields
  rw [← hfields]
  generalize sign16 q = s
  revert s
  decide

/-- A pattern of a narrow class comes back (40_narrowing.md R114(c)). -/
theorem narrow_widen_of_isNarrowClass {q : BF16} (h : isNarrowClass q = true) :
    narrow (widen q) = q := by
  simp only [isNarrowClass, Bool.or_eq_true] at h
  obtain ((hzero | hnormal) | hinf) | hquiet := h
  · have he : exponent32 (widen q) = 0x00#8 := by
      simp only [isZero16, Bool.and_eq_true, beq_iff_eq] at hzero
      rw [exponent32_widen, hzero.1]
    rw [narrow_of_exponent_zero he, sign32_widen, sign16_append_of_isZero16 hzero]
  · rw [narrow_of_not_roundsUp ((isNormal32_widen q).trans hnormal) (not_narrowRoundsUp_widen q),
      high16_widen]
  · rw [narrow_of_isInfinite32 ((isInfinite32_widen q).trans hinf), high16_widen]
  · have hnan := (isNaN32_widen q).trans (isNaN16_of_isQuiet16 hquiet)
    rw [narrow_of_isNaN32 hnan, high16_widen, or_quiet_bit_of_set ((isQuiet16_iff q).mp hquiet).2]

theorem narrow_widen_of_isSignaling16 {q : BF16} (h : isSignaling16 q = true) :
    narrow (widen q) = q + 0x40#16 := by
  simp only [isSignaling16, Bool.and_eq_true, Bool.not_eq_true', quietBit_mantissa16] at h
  obtain ⟨hnan, hclear⟩ := h
  rw [narrow_of_isNaN32 ((isNaN32_widen q).trans hnan), high16_widen, or_quiet_bit_of_clear hclear]

theorem narrow_widen_of_isSubnormal16 {q : BF16} (h : isSubnormal16 q = true) :
    narrow (widen q) = if q.getLsbD 15 then 0x8000#16 else 0x0000#16 := by
  simp only [isSubnormal16, Bool.and_eq_true, beq_iff_eq] at h
  obtain ⟨he, -⟩ := h
  rw [narrow_of_exponent_zero ((exponent32_widen q).trans he), sign32_append_zero,
    getLsbD_widen q 15]

/-- The two ranges of R113 hold signaling NaNs. -/
theorem isSignaling16_of_range {q : BF16}
    (h : (0x7F81#16 ≤ q ∧ q ≤ 0x7FBF#16) ∨ (0xFF81#16 ≤ q ∧ q ≤ 0xFFBF#16)) :
    isSignaling16 q = true := by
  simp only [isSignaling16, isNaN16, Bool.and_eq_true, beq_iff_eq, bne_iff_ne, ne_eq,
    Bool.not_eq_true', getLsbD_eq_decide, decide_eq_false_iff_not,
    ← BitVec.toNat_inj, toNat_exponent16, toNat_mantissa16, BitVec.le_def,
    BitVec.toNat_ofNat] at h ⊢
  omega

/-- Settles O23: a signaling NaN, a subnormal, or one of the narrow classes, which are all results. -/
theorem narrowOfWiden : Obligations.NarrowOfWiden :=
  ⟨fun q => ⟨narrow_widen_of_isSignaling16, narrow_widen_of_isSubnormal16,
      fun hsig hsub => narrow_widen_of_isNarrowClass ((isNarrowClass_iff q).mpr ⟨hsub, hsig⟩)⟩,
    fun _ h => narrow_widen_of_isSignaling16 (isSignaling16_of_range h),
    fun x => ⟨not_isSignaling16_narrow x, not_isSubnormal16_narrow x⟩⟩

/-! ### Exactness (40_narrowing.md R111) -/

/-- R111's four classes of exact inputs. -/
def IsExactlyNarrowed (x : F32) : Prop :=
  isZero32 x = true ∨ (isNormal32 x = true ∧ low16 x = 0#16) ∨ isInfinite32 x = true ∨
    (isNaN32 x = true ∧ isSignaling32 x = false ∧ low16 x = 0#16)

theorem low16_eq_zero_of_isExactlyNarrowed {x : F32} (h : IsExactlyNarrowed x) :
    low16 x = 0x0000#16 := by
  obtain hzero | ⟨-, hlow⟩ | hinf | ⟨-, -, hlow⟩ := h
  · simp only [isZero32, Bool.and_eq_true, beq_iff_eq] at hzero
    exact low16_eq_zero_of_mantissa32 hzero.2
  · exact hlow
  · simp only [isInfinite32, Bool.and_eq_true, beq_iff_eq] at hinf
    exact low16_eq_zero_of_mantissa32 hinf.2
  · exact hlow

/-- The exact inputs are the widened narrow classes. -/
theorem isExactlyNarrowed_widen_iff (q : BF16) :
    IsExactlyNarrowed (widen q) ↔ isNarrowClass q = true := by
  simp only [IsExactlyNarrowed, isNarrowClass, isQuiet16, isSignaling16, isZero32_widen,
    isNormal32_widen, isInfinite32_widen, isNaN32_widen, isSignaling32_widen, low16_widen,
    Bool.or_eq_true, Bool.and_eq_true]
  cases isNaN16 q <;> simp [or_assoc]

/-- Settles O21: a pattern is the widened result of narrowing exactly when it is a widened pattern of a
narrow class. -/
theorem narrowThenWidenExactness : Obligations.NarrowThenWidenExactness := by
  intro x
  change widen (narrow x) = x ↔ IsExactlyNarrowed x
  constructor
  · intro h
    rw [← h, isExactlyNarrowed_widen_iff]
    exact isNarrowClass_narrow x
  · intro h
    have hx := widen_high16 (low16_eq_zero_of_isExactlyNarrowed h)
    rw [← hx, isExactlyNarrowed_widen_iff] at h
    rw [← hx, narrow_widen_of_isNarrowClass h]

/-! ### Values in units of 2^-149 (00_scope.md R10) -/

/-- The magnitude of a finite f32 pattern, as a number of units, from its low 31 bits. -/
def magnitudeUnits (M : Nat) : Nat := fieldUnits 23 (M / 2 ^ 23) (M % 2 ^ 23)

/-- The value of a finite f32 pattern, as a whole number of units of 2^-149 (00_scope.md R10). -/
def valueUnits (x : F32) : Int :=
  if x.getLsbD 31 then -(magnitudeUnits (x.toNat % 2 ^ 31) : Int)
  else magnitudeUnits (x.toNat % 2 ^ 31)

theorem valueUnits_of_positive {x : F32} (h : x.getLsbD 31 = false) :
    valueUnits x = magnitudeUnits (x.toNat % 2 ^ 31) := by
  rw [valueUnits, h, if_neg Bool.false_ne_true]

theorem valueUnits_of_negative {x : F32} (h : x.getLsbD 31 = true) :
    valueUnits x = -(magnitudeUnits (x.toNat % 2 ^ 31) : Int) := by
  rw [valueUnits, if_pos h]

theorem natAbs_valueUnits (x : F32) : (valueUnits x).natAbs = magnitudeUnits (x.toNat % 2 ^ 31) := by
  cases h : x.getLsbD 31
  · rw [valueUnits_of_positive h, Int.natAbs_natCast]
  · rw [valueUnits_of_negative h, Int.natAbs_neg, Int.natAbs_natCast]

/-- R10's value is that many units. -/
theorem real?_val32_of_finite {x : F32} (h : exponent32 x ≠ 0xFF#8) :
    (val32 x).real? = some ((valueUnits x : ℚ) * 2 ^ (-149 : ℤ)) := by
  have hlt : (exponent32 x).toNat < 255 := by
    have hne : (exponent32 x).toNat ≠ 255 := fun heq => h (BitVec.eq_of_toNat_eq heq)
    have hbound := (exponent32 x).isLt
    omega
  have hunits : fieldUnits 23 (exponent32 x).toNat (mantissa32 x).toNat =
      magnitudeUnits (x.toNat % 2 ^ 31) := by
    rw [magnitudeUnits, toNat_exponent32, toNat_mantissa32]
    congr 1 <;> omega
  rw [val32, fieldsValue_units _ (le_refl 23) hlt, hunits, valueUnits]
  cases x.getLsbD 31 <;> simp [FpValue.real?]

theorem real?_val32_of_exponent_ones {x : F32} (h : exponent32 x = 0xFF#8) :
    (val32 x).real? = none := by
  rw [val32, h]
  by_cases hf : (mantissa32 x).toNat = 0
  · rw [hf]
    rfl
  · exact congrArg FpValue.real? (fieldsValue_nan (x.getLsbD 31) hf)

/-- A pattern with a real value has a finite exponent, and its value is its units. -/
theorem real?_val32_eq_some {x : F32} {v : ℚ} (h : (val32 x).real? = some v) :
    exponent32 x ≠ 0xFF#8 ∧ v = (valueUnits x : ℚ) * 2 ^ (-149 : ℤ) := by
  have hfinite : exponent32 x ≠ 0xFF#8 := by
    intro hones
    rw [real?_val32_of_exponent_ones hones] at h
    cases h
  rw [real?_val32_of_finite hfinite] at h
  exact ⟨hfinite, (Option.some.inj h).symm⟩

/-- A bf16 mantissa's value is unchanged by 16 more zero bits. -/
theorem fieldsValue_widen {e f : Nat} (s : Bool) (h : e ≠ 255 ∨ f = 0) :
    fieldsValue 23 s e (f * 2 ^ 16) = fieldsValue 7 s e f := by
  have hmantissa : ((f * 2 ^ 16 : Nat) : ℚ) / 2 ^ 23 = (f : ℚ) / 2 ^ 7 := by
    push_cast
    ring
  by_cases h255 : e = 255
  · obtain rfl := h.resolve_left (not_not.mpr h255)
    rw [h255, Nat.zero_mul, fieldsValue_infinite, fieldsValue_infinite]
  · rw [fieldsValue, fieldsValue, if_neg h255, if_neg h255, hmantissa]

/-- Widening keeps the value of every pattern that is not a NaN. -/
theorem val32_widen {q : BF16} (h : isNaN16 q = false) : val32 (widen q) = val16 q := by
  rw [val32, val16, getLsbD_widen q 15, exponent32_widen, toNat_mantissa32_widen]
  apply fieldsValue_widen
  rw [isNaN16, Bool.and_eq_false_iff, beq_eq_false_iff_ne, bne_eq_false_iff_eq] at h
  obtain he | hf := h
  · exact .inl fun heq => he (BitVec.eq_of_toNat_eq heq)
  · exact .inr (congrArg BitVec.toNat hf)

/-- The real value of a bf16 pattern is that of its widened pattern, also when there is none. -/
theorem real?_val16 (q : BF16) : (val16 q).real? = (val32 (widen q)).real? := by
  cases h : isNaN16 q
  · rw [val32_widen h]
  · simp only [isNaN16, Bool.and_eq_true, beq_iff_eq, bne_iff_ne] at h
    obtain ⟨he, hf⟩ := h
    have hf' : (mantissa16 q).toNat ≠ 0 := fun heq => hf (BitVec.eq_of_toNat_eq heq)
    rw [real?_val32_of_exponent_ones ((exponent32_widen q).trans he), val16, he]
    exact congrArg FpValue.real? (fieldsValue_nan (q.getLsbD 15) hf')

/-! ### The units of neighbouring magnitudes -/

/-- One more in the pattern is one more unit in the last place. -/
theorem magnitudeUnits_succ (M : Nat) :
    magnitudeUnits (M + 1) = magnitudeUnits M + 2 ^ (M / 2 ^ 23 - 1) := by
  unfold magnitudeUnits fieldUnits
  by_cases hcarry : M % 2 ^ 23 + 1 = 2 ^ 23
  · have he : (M + 1) / 2 ^ 23 = M / 2 ^ 23 + 1 := by omega
    have hf : (M + 1) % 2 ^ 23 = 0 := by omega
    rw [he, hf]
    cases M / 2 ^ 23 with
    | zero => simp; omega
    | succ d =>
      have hfull : M % 2 ^ 23 = 2 ^ 23 - 1 := by omega
      rw [hfull]
      simp [pow_succ]
      ring
  · have he : (M + 1) / 2 ^ 23 = M / 2 ^ 23 := by omega
    have hf : (M + 1) % 2 ^ 23 = M % 2 ^ 23 + 1 := by omega
    rw [he, hf]
    cases M / 2 ^ 23 with
    | zero => simp
    | succ d => simp; ring

theorem magnitudeUnits_strictMono : StrictMono magnitudeUnits := by
  refine strictMono_nat_of_lt_succ fun M => ?_
  rw [magnitudeUnits_succ]
  exact Nat.lt_add_of_pos_right (by positivity)

/-- Between two neighbouring bf16 magnitudes the units grow evenly. -/
theorem magnitudeUnits_mul_add (k : Nat) {l : Nat} (hl : l ≤ 2 ^ 16) :
    magnitudeUnits (k * 2 ^ 16 + l) = magnitudeUnits (k * 2 ^ 16) + l * 2 ^ (k / 2 ^ 7 - 1) := by
  induction l with
  | zero => simp
  | succ l ih =>
    have hbinade : (k * 2 ^ 16 + l) / 2 ^ 23 = k / 2 ^ 7 := by omega
    rw [← Nat.add_assoc, magnitudeUnits_succ, ih (by omega), hbinade, Nat.add_mul, Nat.one_mul,
      Nat.add_assoc]

/-- The distances of a magnitude to the bf16 magnitudes below and above it compare as the discarded bits
do with the tie. -/
theorem magnitudeUnits_between (M : Nat) :
    ∃ below above : Nat,
      magnitudeUnits M = magnitudeUnits (M / 2 ^ 16 * 2 ^ 16) + below ∧
      magnitudeUnits ((M / 2 ^ 16 + 1) * 2 ^ 16) = magnitudeUnits M + above ∧
      (below ≤ above ↔ M % 2 ^ 16 ≤ 2 ^ 15) ∧ (above ≤ below ↔ 2 ^ 15 ≤ M % 2 ^ 16) := by
  have hlow : M % 2 ^ 16 ≤ 2 ^ 16 := (Nat.mod_lt _ (by decide)).le
  have hM := magnitudeUnits_mul_add (M / 2 ^ 16) hlow
  have hnext := magnitudeUnits_mul_add (M / 2 ^ 16) (le_refl (2 ^ 16))
  rw [Nat.div_add_mod' M (2 ^ 16)] at hM
  have hstep : 0 < 2 ^ (M / 2 ^ 16 / 2 ^ 7 - 1) := by positivity
  refine ⟨M % 2 ^ 16 * 2 ^ (M / 2 ^ 16 / 2 ^ 7 - 1),
    (2 ^ 16 - M % 2 ^ 16) * 2 ^ (M / 2 ^ 16 / 2 ^ 7 - 1), hM, ?_, ?_, ?_⟩
  · rw [Nat.succ_mul, hnext, hM, Nat.add_assoc, ← Nat.add_mul, Nat.add_sub_cancel' hlow]
  · rw [Nat.mul_le_mul_right_iff hstep]
    omega
  · rw [Nat.mul_le_mul_right_iff hstep]
    omega

/-- The bf16 magnitude that narrowing gives a normal of magnitude `M`: R110's sum. -/
def roundedMagnitude (M : Nat) : Nat := (M + 0x7FFF + M / 2 ^ 16 % 2) / 2 ^ 16

/-- The discarded bits choose the magnitude below or the one above, and at a tie the even one. -/
theorem roundedMagnitude_cases (M : Nat) :
    (roundedMagnitude M = M / 2 ^ 16 ∧ M % 2 ^ 16 ≤ 2 ^ 15 ∧
        (M % 2 ^ 16 = 2 ^ 15 → roundedMagnitude M % 2 = 0)) ∨
      (roundedMagnitude M = M / 2 ^ 16 + 1 ∧ 2 ^ 15 ≤ M % 2 ^ 16 ∧
        (M % 2 ^ 16 = 2 ^ 15 → roundedMagnitude M % 2 = 0)) := by
  unfold roundedMagnitude
  obtain hparity | hparity := Nat.mod_two_eq_zero_or_one (M / 2 ^ 16) <;> rw [hparity] <;> omega

/-- The distance in units from an f32 magnitude to a bf16 one. -/
def unitsApart (M m : Nat) : Nat :=
  ((magnitudeUnits M : Int) - magnitudeUnits (m * 2 ^ 16)).natAbs

/-- No bf16 magnitude is nearer than the rounded one, and one that is as near leaves it even. -/
theorem roundedMagnitude_nearest (M m : Nat) :
    unitsApart M (roundedMagnitude M) ≤ unitsApart M m ∧
      (m ≠ roundedMagnitude M → unitsApart M (roundedMagnitude M) = unitsApart M m →
        roundedMagnitude M % 2 = 0) := by
  obtain ⟨below, above, hM, hnext, hle, hge⟩ := magnitudeUnits_between M
  have hlower : m ≤ M / 2 ^ 16 →
      magnitudeUnits (m * 2 ^ 16) ≤ magnitudeUnits (M / 2 ^ 16 * 2 ^ 16) :=
    fun h => magnitudeUnits_strictMono.monotone (Nat.mul_le_mul_right _ h)
  have hupper : M / 2 ^ 16 + 1 ≤ m →
      magnitudeUnits ((M / 2 ^ 16 + 1) * 2 ^ 16) ≤ magnitudeUnits (m * 2 ^ 16) :=
    fun h => magnitudeUnits_strictMono.monotone (Nat.mul_le_mul_right _ h)
  have hinj : magnitudeUnits (m * 2 ^ 16) = magnitudeUnits (roundedMagnitude M * 2 ^ 16) →
      m = roundedMagnitude M :=
    fun h => Nat.eq_of_mul_eq_mul_right (by decide) (magnitudeUnits_strictMono.injective h)
  unfold unitsApart
  obtain ⟨hr, hlow, htie⟩ | ⟨hr, hlow, htie⟩ := roundedMagnitude_cases M <;>
    rw [hr] at hinj htie ⊢ <;> omega

/-- A tie goes to an even magnitude. -/
theorem roundedMagnitude_even_of_tie {M : Nat} (h : M % 2 ^ 16 = 2 ^ 15) :
    roundedMagnitude M % 2 = 0 := by
  obtain ⟨-, -, htie⟩ | ⟨-, -, htie⟩ := roundedMagnitude_cases M <;> exact htie h

/-! ### The value of a narrowed normal is nearest (40_narrowing.md R101) -/

theorem narrow_magnitude_eq_rounded {x : F32} (h : isNormal32 x = true) :
    (narrow x).toNat % 2 ^ 15 = roundedMagnitude (x.toNat % 2 ^ 31) := by
  rw [narrow_magnitude h, roundedMagnitude]
  omega

theorem widen_magnitude (q : BF16) : (widen q).toNat % 2 ^ 31 = q.toNat % 2 ^ 15 * 2 ^ 16 := by
  rw [widen, toNat_append16, BitVec.toNat_ofNat]
  omega

/-- The low bit of a bf16 pattern is its magnitude's parity. -/
theorem getLsbD_zero_eq_false_iff (q : BF16) :
    q.getLsbD 0 = false ↔ q.toNat % 2 ^ 15 % 2 = 0 := by
  rw [getLsbD_eq_decide, decide_eq_false_iff_not]
  omega

theorem natAbs_sub_of_sign_eq {x y : F32} (h : x.getLsbD 31 = y.getLsbD 31) :
    (valueUnits x - valueUnits y).natAbs =
      ((magnitudeUnits (x.toNat % 2 ^ 31) : Int) - magnitudeUnits (y.toNat % 2 ^ 31)).natAbs := by
  cases hx : x.getLsbD 31 <;> rw [hx] at h
  · rw [valueUnits_of_positive hx, valueUnits_of_positive h.symm]
  · rw [valueUnits_of_negative hx, valueUnits_of_negative h.symm]
    omega

theorem natAbs_sub_of_sign_ne {x y : F32} (h : x.getLsbD 31 ≠ y.getLsbD 31) :
    (valueUnits x - valueUnits y).natAbs =
      magnitudeUnits (x.toNat % 2 ^ 31) + magnitudeUnits (y.toNat % 2 ^ 31) := by
  cases hx : x.getLsbD 31 <;> rw [hx] at h
  · have hy : y.getLsbD 31 = true := by simpa using h.symm
    rw [valueUnits_of_positive hx, valueUnits_of_negative hy]
    omega
  · have hy : y.getLsbD 31 = false := by simpa using h.symm
    rw [valueUnits_of_negative hx, valueUnits_of_positive hy]
    omega

/-- In units: no bf16 pattern is nearer to a normal than its narrowed pattern, and where another is as
near, the narrowed one is even. -/
theorem narrow_nearest_units {x : F32} (h : isNormal32 x = true) (q : BF16) :
    (valueUnits x - valueUnits (widen (narrow x))).natAbs ≤
        (valueUnits x - valueUnits (widen q)).natAbs ∧
      (q ≠ narrow x →
        (valueUnits x - valueUnits (widen (narrow x))).natAbs =
          (valueUnits x - valueUnits (widen q)).natAbs → (narrow x).getLsbD 0 = false) := by
  have hsign : x.getLsbD 31 = (widen (narrow x)).getLsbD 31 := by
    rw [getLsbD_widen _ 15, narrow_sign]
  have hresult : (valueUnits x - valueUnits (widen (narrow x))).natAbs =
      unitsApart (x.toNat % 2 ^ 31) (roundedMagnitude (x.toNat % 2 ^ 31)) := by
    rw [natAbs_sub_of_sign_eq hsign, widen_magnitude, narrow_magnitude_eq_rounded h, unitsApart]
  rw [hresult, getLsbD_zero_eq_false_iff, narrow_magnitude_eq_rounded h]
  by_cases hq : x.getLsbD 31 = (widen q).getLsbD 31
  · have hother : (valueUnits x - valueUnits (widen q)).natAbs =
        unitsApart (x.toNat % 2 ^ 31) (q.toNat % 2 ^ 15) := by
      rw [natAbs_sub_of_sign_eq hq, widen_magnitude, unitsApart]
    obtain ⟨hle, heven⟩ := roundedMagnitude_nearest (x.toNat % 2 ^ 31) (q.toNat % 2 ^ 15)
    rw [hother]
    refine ⟨hle, fun hne => heven fun hmag => hne ?_⟩
    rw [hq, getLsbD_widen q 15] at hsign
    rw [getLsbD_widen _ 15] at hsign
    exact eq_of_sign_of_magnitude hsign (hmag.trans (narrow_magnitude_eq_rounded h).symm)
  · obtain ⟨hle, heven⟩ := roundedMagnitude_nearest (x.toNat % 2 ^ 31) 0
    have hzero : unitsApart (x.toNat % 2 ^ 31) 0 = magnitudeUnits (x.toNat % 2 ^ 31) := rfl
    rw [natAbs_sub_of_sign_ne hq]
    omega

theorem abs_sub_units (a b : Int) :
    |(a : ℚ) * 2 ^ (-149 : ℤ) - (b : ℚ) * 2 ^ (-149 : ℤ)| =
      ((a - b).natAbs : ℚ) * 2 ^ (-149 : ℤ) := by
  rw [← sub_mul, abs_mul, abs_of_pos (by positivity : (0 : ℚ) < 2 ^ (-149 : ℤ)), Nat.cast_natAbs]
  push_cast
  rfl

/-! ### Comparing values by their units -/

theorem units_pos : (0 : ℚ) < 2 ^ (-149 : ℤ) := by positivity

/-- Distances of values compare as their units do. -/
theorem abs_sub_le_abs_sub_iff_units (a b c : Int) :
    |(a : ℚ) * 2 ^ (-149 : ℤ) - (b : ℚ) * 2 ^ (-149 : ℤ)| ≤
        |(a : ℚ) * 2 ^ (-149 : ℤ) - (c : ℚ) * 2 ^ (-149 : ℤ)| ↔
      (a - b).natAbs ≤ (a - c).natAbs := by
  rw [abs_sub_units, abs_sub_units, mul_le_mul_iff_left₀ units_pos, Nat.cast_le]

theorem abs_sub_eq_abs_sub_iff_units (a b c : Int) :
    |(a : ℚ) * 2 ^ (-149 : ℤ) - (b : ℚ) * 2 ^ (-149 : ℤ)| =
        |(a : ℚ) * 2 ^ (-149 : ℤ) - (c : ℚ) * 2 ^ (-149 : ℤ)| ↔
      (a - b).natAbs = (a - c).natAbs := by
  rw [abs_sub_units, abs_sub_units, mul_left_inj' units_pos.ne', Nat.cast_inj]

/-- Magnitudes of values compare as those of the patterns. -/
theorem abs_units_lt_of_magnitude_lt {x y : F32} (h : x.toNat % 2 ^ 31 < y.toNat % 2 ^ 31) :
    |(valueUnits x : ℚ) * 2 ^ (-149 : ℤ)| < |(valueUnits y : ℚ) * 2 ^ (-149 : ℤ)| := by
  rw [abs_mul, abs_mul, abs_of_pos units_pos, mul_lt_mul_iff_left₀ units_pos, ← Int.cast_abs,
    ← Int.cast_abs, Int.cast_lt, Int.abs_eq_natAbs, Int.abs_eq_natAbs, Nat.cast_lt,
    natAbs_valueUnits, natAbs_valueUnits]
  exact magnitudeUnits_strictMono h

theorem magnitude_lt_of_finite16 {q : BF16} (h : exponent16 q ≠ 0xFF#8) :
    q.toNat % 2 ^ 15 < 0x7F80 := by
  rw [ne_eq, ← BitVec.toNat_inj, toNat_exponent16, BitVec.toNat_ofNat] at h
  omega

/-- A normal narrowed to infinity is above every finite bf16 magnitude. -/
theorem magnitude_lt_of_narrow_infinite {x : F32} {q : BF16} (hx : isNormal32 x = true)
    (hinf : isInfinite16 (narrow x) = true) (hq : exponent16 q ≠ 0xFF#8) :
    (widen q).toNat % 2 ^ 31 < x.toNat % 2 ^ 31 := by
  have hmag := magnitude_lt_of_finite16 hq
  rw [isInfinite16_iff_toNat, narrow_magnitude hx] at hinf
  rw [widen_magnitude]
  omega

theorem val16_narrow_of_isInfinite32 {x : F32} (h : isInfinite32 x = true) :
    val16 (narrow x) = val32 x := by
  have hnan := isNaN16_eq_false (.inr (.inr (isInfinite16_narrow_of_isInfinite32 h)))
  have hexact : widen (narrow x) = x := (narrowThenWidenExactness x).mpr (.inr (.inr (.inl h)))
  rw [← val32_widen hnan, hexact]

/-- Settles O20: distances are compared in units of 2^-149, where the rounded magnitude is nearest. -/
theorem narrowIsNearestTiesToEven : Obligations.NarrowIsNearestTiesToEven := by
  refine ⟨?nearest, ?tie, ?overflow, fun x => val16_narrow_of_isInfinite32⟩
  case nearest =>
    intro x v r hx hv hr q u hu
    rw [real?_val16] at hr hu
    obtain ⟨-, rfl⟩ := real?_val32_eq_some hv
    obtain ⟨-, rfl⟩ := real?_val32_eq_some hr
    obtain ⟨-, rfl⟩ := real?_val32_eq_some hu
    rw [abs_sub_le_abs_sub_iff_units, abs_sub_eq_abs_sub_iff_units]
    exact narrow_nearest_units hx q
  case tie =>
    intro x hx htie
    rw [← BitVec.toNat_inj, toNat_low16, BitVec.toNat_ofNat] at htie
    rw [getLsbD_zero_eq_false_iff, narrow_magnitude_eq_rounded hx]
    exact roundedMagnitude_even_of_tie (by omega)
  case overflow =>
    intro x v hx hv hinf q u hu
    rw [real?_val16] at hu
    obtain ⟨-, rfl⟩ := real?_val32_eq_some hv
    obtain ⟨hq, rfl⟩ := real?_val32_eq_some hu
    rw [exponent32_widen] at hq
    exact abs_units_lt_of_magnitude_lt (magnitude_lt_of_narrow_infinite hx hinf hq)

/-! ### Patterns from values -/

theorem magnitudeUnits_pos {M : Nat} (h : 0 < M) : 0 < magnitudeUnits M :=
  (Nat.zero_le _).trans_lt (magnitudeUnits_strictMono h)

/-- The sign of a value that is not zero is the sign bit. -/
theorem sign_eq_decide_units_neg {x : F32} (h : 0 < x.toNat % 2 ^ 31) :
    x.getLsbD 31 = decide (valueUnits x < 0) := by
  have hpos := magnitudeUnits_pos h
  cases h : x.getLsbD 31
  · simp [valueUnits_of_positive h]
  · simpa [valueUnits_of_negative h] using hpos

/-- An f32 pattern is its sign and its magnitude. -/
theorem eq_of_sign_of_magnitude32 {x y : F32} (hsign : x.getLsbD 31 = y.getLsbD 31)
    (hmag : x.toNat % 2 ^ 31 = y.toNat % 2 ^ 31) : x = y := by
  have hx := x.isLt
  have hy := y.isLt
  rw [getLsbD_eq_decide, getLsbD_eq_decide, decide_eq_decide] at hsign
  apply BitVec.eq_of_toNat_eq
  omega

/-- A normal pattern is decided by its value. -/
theorem eq_of_real?_val32_eq {x y : F32} {v : ℚ} (hx : isNormal32 x = true)
    (hxv : (val32 x).real? = some v) (hyv : (val32 y).real? = some v) : x = y := by
  obtain ⟨-, hxu⟩ := real?_val32_eq_some hxv
  obtain ⟨-, hyu⟩ := real?_val32_eq_some hyv
  have hunits : valueUnits x = valueUnits y := by
    have h := hxu.symm.trans hyu
    rwa [mul_left_inj' units_pos.ne', Int.cast_inj] at h
  have hmag : x.toNat % 2 ^ 31 = y.toNat % 2 ^ 31 := by
    apply magnitudeUnits_strictMono.injective
    rw [← natAbs_valueUnits, ← natAbs_valueUnits, hunits]
  have hpos : 0 < x.toNat % 2 ^ 31 := Nat.zero_lt_of_lt ((isNormal32_iff_toNat x).mp hx).1
  refine eq_of_sign_of_magnitude32 ?_ hmag
  rw [sign_eq_decide_units_neg hpos, sign_eq_decide_units_neg (hmag ▸ hpos), hunits]

/-- A normal keeps its value exactly when no discarded bit is set. -/
theorem real?_narrow_eq_iff {x : F32} {v : ℚ} (hx : isNormal32 x = true)
    (hv : (val32 x).real? = some v) :
    (val16 (narrow x)).real? = some v ↔ low16 x = 0x0000#16 := by
  rw [real?_val16]
  constructor
  · intro h
    rw [eq_of_real?_val32_eq hx hv h, low16_widen]
  · intro h
    have hexact : widen (narrow x) = x := (narrowThenWidenExactness x).mpr (.inr (.inl ⟨hx, h⟩))
    rw [hexact, hv]

/-! ### Integer values (40_narrowing.md R112) -/

/-- An integer whose 24-bit significand is `S` has at most 8 significant bits exactly when the low 16
bits of `S` are zero. -/
theorem significantBitsAtMost_iff {S m d u : Nat} (hlo : 2 ^ 23 ≤ S) (hhi : S < 2 ^ 24)
    (h : m * 2 ^ u = S * 2 ^ d) : SignificantBitsAtMost 8 m ↔ S % 2 ^ 16 = 0 := by
  rw [← Nat.dvd_iff_mod_eq_zero]
  constructor
  · rintro ⟨c, j, hc, rfl⟩
    rw [Nat.mul_assoc, ← Nat.pow_add] at h
    have hexp : d + 16 ≤ j + u := by
      by_contra hlt
      have hle : 2 ^ (j + u) ≤ 2 ^ (d + 15) := Nat.pow_le_pow_right (by decide) (by omega)
      have hcontra : S * 2 ^ d < S * 2 ^ d := calc
        S * 2 ^ d = c * 2 ^ (j + u) := h.symm
        _ < 2 ^ 8 * 2 ^ (j + u) := Nat.mul_lt_mul_of_pos_right hc (by positivity)
        _ ≤ 2 ^ 8 * 2 ^ (d + 15) := Nat.mul_le_mul_left _ hle
        _ = 2 ^ 23 * 2 ^ d := by ring
        _ ≤ S * 2 ^ d := Nat.mul_le_mul_right _ hlo
      exact lt_irrefl _ hcontra
    obtain ⟨k, hk⟩ := Nat.exists_eq_add_of_le hexp
    refine ⟨c * 2 ^ k, Nat.eq_of_mul_eq_mul_right (Nat.two_pow_pos d) ?_⟩
    rw [← h, hk]
    ring
  · rintro ⟨c, rfl⟩
    have hc : c < 2 ^ 8 := by omega
    rw [Nat.mul_comm (2 ^ 16) c, Nat.mul_assoc, ← Nat.pow_add] at h
    obtain hle | hle := Nat.le_total u (16 + d)
    · obtain ⟨k, hk⟩ := Nat.exists_eq_add_of_le hle
      refine ⟨c, k, hc, Nat.eq_of_mul_eq_mul_right (Nat.two_pow_pos u) ?_⟩
      rw [h, hk]
      ring
    · obtain ⟨k, hk⟩ := Nat.exists_eq_add_of_le hle
      have hm : m * 2 ^ k = c := by
        apply Nat.eq_of_mul_eq_mul_right (Nat.two_pow_pos (16 + d))
        rw [← h, hk]
        ring
      have hle : m ≤ m * 2 ^ k := Nat.le_mul_of_pos_right m (Nat.two_pow_pos k)
      exact ⟨m, 0, by omega, by simp⟩

theorem magnitudeUnits_of_normal {M : Nat} (h : 2 ^ 23 ≤ M) :
    magnitudeUnits M = (2 ^ 23 + M % 2 ^ 23) * 2 ^ (M / 2 ^ 23 - 1) := by
  have he : M / 2 ^ 23 ≠ 0 := by omega
  rw [magnitudeUnits, fieldUnits, if_neg he, Nat.sub_self, Nat.pow_zero, Nat.mul_one]

theorem magnitudeUnits_of_denormal {M : Nat} (h : M < 2 ^ 23) : magnitudeUnits M = M := by
  rw [magnitudeUnits, Nat.div_eq_of_lt h, Nat.mod_eq_of_lt h, fieldUnits, if_pos rfl, Nat.sub_self,
    Nat.pow_zero, Nat.mul_one]

/-- An integer value in units. -/
theorem natAbs_mul_of_real?_val32 {x : F32} {n : Int} (h : (val32 x).real? = some (n : ℚ)) :
    n.natAbs * 2 ^ 149 = magnitudeUnits (x.toNat % 2 ^ 31) := by
  obtain ⟨-, hn⟩ := real?_val32_eq_some h
  have hunits : n * 2 ^ 149 = valueUnits x := by
    have hcast : (n : ℚ) * 2 ^ 149 = valueUnits x := by
      rw [hn, mul_assoc, zpow_neg, zpow_ofNat, inv_mul_cancel₀ (by positivity), mul_one]
    exact_mod_cast hcast
  rw [← natAbs_valueUnits, ← hunits, Int.natAbs_mul]
  rfl

theorem real?_val16_of_isZero16 {q : BF16} (h : isZero16 q = true) :
    (val16 q).real? = some 0 := by
  simp only [isZero16, Bool.and_eq_true, beq_iff_eq] at h
  obtain ⟨he, hm⟩ := h
  rw [val16, he, hm]
  cases q.getLsbD 15 <;> simp [fieldsValue, FpValue.real?]

/-- No denormal but zero is an integer. -/
theorem eq_zero_of_integer_of_exponent_zero {x : F32} {n : Int} (he : exponent32 x = 0x00#8)
    (h : (val32 x).real? = some (n : ℚ)) : n = 0 := by
  have hn := natAbs_mul_of_real?_val32 h
  rw [← BitVec.toNat_inj, toNat_exponent32, BitVec.toNat_ofNat] at he
  have hmag : x.toNat % 2 ^ 31 < 2 ^ 23 := by omega
  rw [magnitudeUnits_of_denormal hmag] at hn
  omega

theorem significantBitsAtMost_of_normal {x : F32} {n : Int} (hx : isNormal32 x = true)
    (h : (val32 x).real? = some (n : ℚ)) :
    SignificantBitsAtMost 8 n.natAbs ↔ low16 x = 0x0000#16 := by
  have hn := natAbs_mul_of_real?_val32 h
  obtain ⟨hlo, -⟩ := (isNormal32_iff_toNat x).mp hx
  rw [magnitudeUnits_of_normal hlo] at hn
  rw [significantBitsAtMost_iff (by omega) (by omega) hn, ← BitVec.toNat_inj, toNat_low16,
    BitVec.toNat_ofNat]
  omega

/-- An integer keeps its value exactly when it has at most 8 significant bits (40_narrowing.md R112). -/
theorem real?_narrow_eq_integer_iff {x : F32} {n : Int} (h : (val32 x).real? = some (n : ℚ)) :
    (val16 (narrow x)).real? = some (n : ℚ) ↔ SignificantBitsAtMost 8 n.natAbs := by
  obtain ⟨hfinite, -⟩ := real?_val32_eq_some h
  by_cases he : exponent32 x = 0x00#8
  · rw [eq_zero_of_integer_of_exponent_zero he h,
      real?_val16_of_isZero16 (isZero16_narrow_of_exponent_zero he)]
    exact iff_of_true (by simp) ⟨0, 0, by decide, rfl⟩
  · have hx : isNormal32 x = true := by simp [isNormal32, he, hfinite]
    rw [real?_narrow_eq_iff hx h, significantBitsAtMost_of_normal hx h]

theorem significantBitsAtMost_of_le {m : Nat} (h : m ≤ 256) : SignificantBitsAtMost 8 m := by
  obtain hlt | rfl := Nat.lt_or_eq_of_le h
  · exact ⟨m, 0, hlt, (Nat.mul_one m).symm⟩
  · exact ⟨1, 8, by decide, rfl⟩

theorem not_significantBitsAtMost_257 : ¬ SignificantBitsAtMost 8 257 := by
  rintro ⟨c, j, hc, h⟩
  cases j with
  | zero => omega
  | succ j =>
    rw [Nat.pow_succ, ← Nat.mul_assoc] at h
    omega

theorem real?_val32_257 : (val32 0x43808000#32).real? = some 257 := by
  have hfields : val32 0x43808000#32 = fieldsValue 23 false 135 0x8000 := rfl
  rw [hfields, fieldsValue_of_normal false (by decide) (by decide), FpValue.real?_finite_false]
  norm_num

theorem real?_val16_256 : (val16 0x4380#16).real? = some 256 := by
  have hfields : val16 0x4380#16 = fieldsValue 7 false 135 0 := rfl
  rw [hfields, real?_fieldsValue_mantissa_zero (x := 8) 7 (by decide) (by decide) rfl]
  norm_num

/-- Settles O22: exactness is that no discarded bit is set, which for an integer bounds its significant
bits; 257 has one pattern, whose result is 256. -/
theorem integerPatternsNarrowExactly : Obligations.IntegerPatternsNarrowExactly := by
  refine ⟨fun x n => real?_narrow_eq_integer_iff, fun m => significantBitsAtMost_of_le,
    not_significantBitsAtMost_257, ⟨129, 1, by decide, rfl⟩, fun x hx => ?_⟩
  have hnarrow : narrow 0x43808000#32 = 0x4380#16 := by decide
  rw [← eq_of_real?_val32_eq (by decide) real?_val32_257 hx, hnarrow, real?_val16_256]

end Sys2Proof.Machine
end

section
/-! PROOFS. The obligations of 41_widening.md: the operation (R130), the fields, classes and values that
widening keeps (R131, R132), and that narrowing its own widened result changes nothing (R134). -/

namespace Sys2Proof.Machine

/-! ### The operation (R130) -/

theorem exec_cvtF32Bf16 (a : OperandWord) (s : State) :
    exec (.cvtF32Bf16 a) s = .next (s.driveResult (widen (operandBF16 a))) := rfl

/-- Settles O26: the result is `Widen` of the operand, which is the low 16 bits of the port. -/
theorem widenOperationResult : Obligations.WidenOperationResult := by
  intro a s
  rw [exec_cvtF32Bf16, widen, operandBF16]

/-! ### What widening keeps (R131, R132) -/

/-- The mantissa is kept whole, over sixteen zeros. -/
theorem mantissa32_widen (q : BF16) : mantissa32 (widen q) = mantissa16 q ++ 0#16 := by
  apply BitVec.eq_of_toNat_eq
  rw [toNat_mantissa32_widen, BitVec.toNat_append, BitVec.toNat_ofNat, Nat.zero_mod, Nat.or_zero,
    Nat.shiftLeft_eq]

theorem isNaN16_eq_false_of_isSubnormal16 {q : BF16} (h : isSubnormal16 q = true) : isNaN16 q = false := by
  simp only [isSubnormal16, Bool.and_eq_true, beq_iff_eq] at h
  obtain ⟨he, -⟩ := h
  rw [isNaN16, he]
  rfl

theorem widen_injective : Function.Injective widen :=
  Function.LeftInverse.injective high16_widen

/-- Settles O27: every class is decided by the exponent and the mantissa, which are kept; a subnormal is
not a NaN, so its value is kept too. -/
theorem widenHasNoSpecialCases : Obligations.WidenHasNoSpecialCases := fun q =>
  ⟨sign32_widen q, exponent32_widen q, mantissa32_widen q, isSignaling32_widen q, isNaN32_widen q,
    isInfinite32_widen q, isZero32_widen q, isNormal32_widen q,
    fun h => val32_widen (isNaN16_eq_false_of_isSubnormal16 h)⟩

/-- Settles O28: the high half of a widened pattern is the pattern, and appended zeros leave the mantissa's
value unchanged. -/
theorem widenExactAndInjective : Obligations.WidenExactAndInjective :=
  ⟨high16_widen, fun _ _ h => widen_injective h, fun _ => val32_widen⟩

/-! ### Narrowing a widened result (R134) -/

/-- Settles O24: a result of narrowing is of a narrow class, and those come back from widening. -/
theorem narrowIdempotentThroughWiden : Obligations.NarrowIdempotentThroughWiden := fun x =>
  narrow_widen_of_isNarrowClass (isNarrowClass_narrow x)

end Sys2Proof.Machine
end

section
/-! PROOFS. The obligations of 42_integer_path.md: the eight operations and the float path (R150, R157),
the nearest f32 (R152), zero and the range (R153, R154), double rounding (R155) and exactness (R156). -/

namespace Sys2Proof.Machine

/-! ### The operations (R150, R157) -/

/-- Settles O29: the meaning of each integer operation, at its own width and signedness. -/
theorem integerOperationResults : Obligations.IntegerOperationResults := fun _ _ =>
  ⟨rfl, rfl, rfl, rfl, rfl, rfl, rfl, rfl⟩

@[simp] theorem operandF32_append (u : BitVec 32) (x : F32) : operandF32 (u ++ x) = x :=
  BitVec.extractLsb'_append_eq_right

/-- Settles O30: `cvt.bf16.f32` narrows the low half of its port, which is the integer's f32 image. -/
theorem integerOperationsEqualFloatPath : Obligations.IntegerOperationsEqualFloatPath := by
  intro a s u
  simp only [exec_cvtBf16F32, operandF32_append]
  exact integerOperationResults a s

/-! ### The rounding shift -/

/-- The remainder chooses the quotient or one more, and a tie leaves the result even. -/
theorem roundShift_cases (m sh : Nat) :
    (roundShift m sh = m / 2 ^ sh ∧ 2 * (m % 2 ^ sh) ≤ 2 ^ sh ∧
        (2 * (m % 2 ^ sh) = 2 ^ sh → roundShift m sh % 2 = 0)) ∨
      (roundShift m sh = m / 2 ^ sh + 1 ∧ 2 ^ sh ≤ 2 * (m % 2 ^ sh) ∧
        (2 * (m % 2 ^ sh) = 2 ^ sh → roundShift m sh % 2 = 0)) := by
  unfold roundShift
  simp only [Nat.shiftRight_eq_div_pow]
  cases sh with
  | zero => simp [Nat.mod_one]
  | succ k =>
    rw [Nat.add_sub_cancel, Nat.pow_succ]
    split <;> omega

/-- Without a remainder the rounding shift is the quotient. -/
theorem roundShift_of_dvd {m sh : Nat} (h : 2 ^ sh ∣ m) : roundShift m sh = m / 2 ^ sh := by
  have hpos := Nat.two_pow_pos sh
  have hrem := Nat.mod_eq_zero_of_dvd h
  obtain ⟨hr, -, -⟩ | ⟨-, hge, -⟩ := roundShift_cases m sh
  · exact hr
  · omega

/-- Low zero bits shifted out with the rest change nothing. -/
theorem roundShift_mul_two_pow (m sh k : Nat) :
    roundShift (m * 2 ^ k) (sh + k) = roundShift m sh := by
  have hscaled := roundShift_cases (m * 2 ^ k) (sh + k)
  rw [Nat.pow_add, Nat.mul_div_mul_right _ _ (Nat.two_pow_pos k), Nat.mul_mod_mul_right,
    ← Nat.mul_assoc, Nat.mul_le_mul_right_iff (Nat.two_pow_pos k),
    Nat.mul_le_mul_right_iff (Nat.two_pow_pos k), Nat.mul_left_inj (Nat.two_pow_pos k).ne']
    at hscaled
  have hplain := roundShift_cases m sh
  omega

/-! ### The rounded significand -/

/-- `m` scaled to `k + 1` significant bits and rounded once, before the carry out of the significand. -/
def significand (k m : Nat) : Nat := roundShift (m * 2 ^ k) (floorLog2 m)

theorem significand_of_le {k m : Nat} (h : floorLog2 m ≤ k) :
    significand k m = m <<< (k - floorLog2 m) := by
  have hscale : m * 2 ^ k = m * 2 ^ (k - floorLog2 m) * 2 ^ floorLog2 m := by
    rw [Nat.mul_assoc, ← Nat.pow_add, Nat.sub_add_cancel h]
  rw [Nat.shiftLeft_eq, significand, hscale, roundShift_of_dvd (Nat.dvd_mul_left _ _),
    Nat.mul_div_cancel _ (Nat.two_pow_pos _)]

theorem significand_of_ge {k m : Nat} (h : k ≤ floorLog2 m) :
    significand k m = roundShift m (floorLog2 m - k) := by
  rw [significand, ← roundShift_mul_two_pow m (floorLog2 m - k) k, Nat.sub_add_cancel h]

/-- The scaled integer's quotient has exactly `k + 1` bits. -/
theorem scaled_quotient_bounds (k : Nat) {m : Nat} (h : 1 ≤ m) :
    2 ^ k ≤ m * 2 ^ k / 2 ^ floorLog2 m ∧ m * 2 ^ k / 2 ^ floorLog2 m < 2 ^ (k + 1) := by
  obtain ⟨hlo, hhi⟩ := floorLog2_bounds h
  have hpos := Nat.two_pow_pos (floorLog2 m)
  constructor
  · rw [Nat.le_div_iff_mul_le hpos, Nat.mul_comm]
    exact Nat.mul_le_mul_right _ hlo
  · rw [Nat.div_lt_iff_lt_mul hpos, ← Nat.pow_add, Nat.add_right_comm, Nat.add_assoc, Nat.pow_add,
      Nat.mul_comm m]
    exact Nat.mul_lt_mul_of_pos_left hhi (Nat.two_pow_pos k)

theorem significand_bounds (k : Nat) {m : Nat} (h : 1 ≤ m) :
    2 ^ k ≤ significand k m ∧ significand k m ≤ 2 ^ (k + 1) := by
  obtain ⟨hlo, hhi⟩ := scaled_quotient_bounds k h
  obtain hq | hq := roundShift_quotient (m * 2 ^ k) (floorLog2 m) <;> rw [significand, hq] <;> omega

/-- Without a shift to the right there is no carry out of the significand. -/
theorem significand_lt_of_le {k m : Nat} (h : 1 ≤ m) (he : floorLog2 m ≤ k) :
    significand k m < 2 ^ (k + 1) := by
  have hdvd : 2 ^ floorLog2 m ∣ m * 2 ^ k := Dvd.dvd.mul_left (Nat.pow_dvd_pow 2 he) m
  rw [significand, roundShift_of_dvd hdvd]
  exact (scaled_quotient_bounds k h).2

theorem floorLog2_lt {m k : Nat} (h : 1 ≤ m) (hlt : m < 2 ^ k) : floorLog2 m < k :=
  (Nat.log2_lt (by omega)).mpr hlt

/-! ### The f32 of an integer, by sign and magnitude -/

theorem roundSignificand_eq {m : Nat} (h : 1 ≤ m) :
    roundSignificand m =
      if significand 23 m = 2 ^ 24 then (floorLog2 m + 1, 2 ^ 23)
      else (floorLog2 m, significand 23 m) := by
  unfold roundSignificand
  by_cases he : floorLog2 m ≤ 23
  · rw [if_pos he, if_neg (significand_lt_of_le h he).ne, significand_of_le he]
  · rw [if_neg he, significand_of_ge (by omega)]

theorem toNat_append_eq_mul_add {v w : Nat} (hi : BitVec v) (lo : BitVec w) :
    (hi ++ lo).toNat = hi.toNat * 2 ^ w + lo.toNat := by
  rw [BitVec.toNat_append, ← Nat.shiftLeft_add_eq_or_of_lt lo.isLt, Nat.shiftLeft_eq]

theorem toNat_packF32 (neg : Bool) (e sig : Nat) :
    (packF32 neg e sig).toNat =
      neg.toNat * 2 ^ 31 + (e + 127) % 2 ^ 8 * 2 ^ 23 + sig % 2 ^ 23 := by
  rw [packF32, toNat_append_eq_mul_add, toNat_append_eq_mul_add, BitVec.toNat_ofBool,
    BitVec.toNat_ofNat, BitVec.toNat_ofNat]
  ring

/-- The magnitude bits of the f32 nearest to an integer of magnitude `m`. The carry out of the significand
is the carry into the exponent field (42_integer_path.md R151). -/
def integerMagnitude (m : Nat) : Nat :=
  if m = 0 then 0 else (floorLog2 m + 126) * 2 ^ 23 + significand 23 m

theorem integerMagnitude_of_pos {m : Nat} (h : 1 ≤ m) :
    integerMagnitude m = (floorLog2 m + 126) * 2 ^ 23 + significand 23 m :=
  if_neg (by omega)

theorem toNat_f32OfInt {n : Int} (hlt : n.natAbs < 2 ^ 64) :
    (f32OfInt n).toNat = (decide (n < 0)).toNat * 2 ^ 31 + integerMagnitude n.natAbs := by
  by_cases hn : n = 0
  · subst hn
    rfl
  · have hm : 1 ≤ n.natAbs := by omega
    obtain ⟨hlo, hhi⟩ := significand_bounds 23 hm
    have he := floorLog2_lt hm hlt
    rw [f32OfInt, if_neg hn, toNat_packF32, roundSignificand_eq hm, integerMagnitude_of_pos hm,
      Nat.add_assoc, Nat.add_left_cancel_iff]
    split
    · omega
    · omega

theorem integerMagnitude_le {m : Nat} (hlt : m < 2 ^ 64) : integerMagnitude m ≤ 0x5F800000 := by
  by_cases hm : m = 0
  · simp [integerMagnitude, hm]
  · have hpos : 1 ≤ m := by omega
    obtain ⟨-, hhi⟩ := significand_bounds 23 hpos
    have he := floorLog2_lt hpos hlt
    rw [integerMagnitude_of_pos hpos]
    omega

theorem le_integerMagnitude {m : Nat} (h : 1 ≤ m) : 0x3F800000 ≤ integerMagnitude m := by
  obtain ⟨hlo, -⟩ := significand_bounds 23 h
  rw [integerMagnitude_of_pos h]
  omega

theorem f32OfInt_magnitude {n : Int} (hlt : n.natAbs < 2 ^ 64) :
    (f32OfInt n).toNat % 2 ^ 31 = integerMagnitude n.natAbs := by
  have hmax := integerMagnitude_le hlt
  rw [toNat_f32OfInt hlt]
  omega

theorem f32OfInt_sign {n : Int} (hlt : n.natAbs < 2 ^ 64) :
    (f32OfInt n).getLsbD 31 = decide (n < 0) := by
  have hmax := integerMagnitude_le hlt
  rw [getLsbD_eq_decide, toNat_f32OfInt hlt, Nat.add_comm, Nat.add_mul_div_right _ _ (by decide),
    Nat.div_eq_of_lt (by omega), Nat.zero_add]
  cases decide (n < 0) <;> rfl

/-! ### The integers of the admitted widths -/

theorem natAbs_integerValue_lt_two_pow (a : OperandWord) {W : Nat} (sgn : Bool)
    (hW : W ∈ Config.intWidths) : (integerValue a W sgn).natAbs < 2 ^ W := by
  obtain ⟨-, ⟨hlo, hhi⟩, ⟨hlo', hhi'⟩, -⟩ := integerOperandValue a W hW
  have hwidths : W = 8 ∨ W = 16 ∨ W = 32 ∨ W = 64 := by simpa [Config.intWidths] using hW
  obtain rfl | rfl | rfl | rfl := hwidths <;> cases sgn <;> omega

theorem natAbs_integerValue_lt_of_le (a : OperandWord) {W k : Nat} (sgn : Bool)
    (hW : W ∈ Config.intWidths) (hle : W ≤ k) : (integerValue a W sgn).natAbs < 2 ^ k :=
  (natAbs_integerValue_lt_two_pow a sgn hW).trans_le (Nat.pow_le_pow_right (by decide) hle)

theorem intWidths_le_64 : ∀ W ∈ Config.intWidths, W ≤ 64 := by decide

theorem natAbs_integerValue_lt (a : OperandWord) {W : Nat} (sgn : Bool) (hW : W ∈ Config.intWidths) :
    (integerValue a W sgn).natAbs < 2 ^ 64 :=
  natAbs_integerValue_lt_of_le a sgn hW (intWidths_le_64 W hW)

/-! ### The nearest f32 (R152) -/

theorem magnitudeUnits_of_significand {e S : Nat} (hlo : 2 ^ 23 ≤ S) (hhi : S ≤ 2 ^ 24) :
    magnitudeUnits ((e + 126) * 2 ^ 23 + S) = S * 2 ^ (e + 126) := by
  rw [magnitudeUnits_of_normal (by omega)]
  obtain hlt | rfl := Nat.lt_or_eq_of_le hhi
  · have hf : 2 ^ 23 + ((e + 126) * 2 ^ 23 + S) % 2 ^ 23 = S := by omega
    have hexp : ((e + 126) * 2 ^ 23 + S) / 2 ^ 23 - 1 = e + 126 := by omega
    rw [hf, hexp]
  · have hf : ((e + 126) * 2 ^ 23 + 2 ^ 24) % 2 ^ 23 = 0 := by omega
    have hexp : ((e + 126) * 2 ^ 23 + 2 ^ 24) / 2 ^ 23 - 1 = e + 126 + 1 := by omega
    rw [hf, hexp]
    ring

/-- An integer lies between two neighbouring f32 magnitudes; the nearer one is its image, and at equal
distance the even one. -/
theorem integerMagnitude_between {m : Nat} (h : 1 ≤ m) :
    ∃ M below above : Nat,
      m * 2 ^ 149 = magnitudeUnits M + below ∧ magnitudeUnits (M + 1) = m * 2 ^ 149 + above ∧
      ((integerMagnitude m = M ∧ below ≤ above ∧ (below = above → integerMagnitude m % 2 = 0)) ∨
        (integerMagnitude m = M + 1 ∧ above ≤ below ∧
          (below = above → integerMagnitude m % 2 = 0))) := by
  obtain ⟨hlo, hhi⟩ := scaled_quotient_bounds 23 h
  have hdivmod := Nat.div_add_mod' (m * 2 ^ 23) (2 ^ floorLog2 m)
  have hrem := Nat.mod_lt (m * 2 ^ 23) (Nat.two_pow_pos (floorLog2 m))
  have hcases := roundShift_cases (m * 2 ^ 23) (floorLog2 m)
  rw [integerMagnitude_of_pos h, significand]
  refine ⟨(floorLog2 m + 126) * 2 ^ 23 + m * 2 ^ 23 / 2 ^ floorLog2 m,
    m * 2 ^ 23 % 2 ^ floorLog2 m * 2 ^ 126,
    (2 ^ floorLog2 m - m * 2 ^ 23 % 2 ^ floorLog2 m) * 2 ^ 126, ?_, ?_, ?_⟩
  · rw [magnitudeUnits_of_significand hlo hhi.le, Nat.pow_add, ← Nat.mul_assoc, ← Nat.add_mul,
      hdivmod]
    ring
  · rw [Nat.add_assoc, magnitudeUnits_of_significand (by omega) (by omega), Nat.pow_add,
      ← Nat.mul_assoc, Nat.succ_mul]
    omega
  · omega

/-- The distance in units from an integer magnitude to an f32 one. -/
def integerUnitsApart (m M : Nat) : Nat := ((m : Int) * 2 ^ 149 - magnitudeUnits M).natAbs

/-- No f32 magnitude is nearer than the integer's image, and one that is as near leaves it even. -/
theorem integerMagnitude_nearest (m M : Nat) :
    integerUnitsApart m (integerMagnitude m) ≤ integerUnitsApart m M ∧
      (M ≠ integerMagnitude m →
        integerUnitsApart m (integerMagnitude m) = integerUnitsApart m M →
        integerMagnitude m % 2 = 0) := by
  obtain rfl | hm := Nat.eq_zero_or_pos m
  · exact ⟨Nat.zero_le _, fun _ _ => rfl⟩
  obtain ⟨L, below, above, hbelow, habove, hcases⟩ := integerMagnitude_between hm
  have hlower : M ≤ L → magnitudeUnits M ≤ magnitudeUnits L :=
    fun h => magnitudeUnits_strictMono.monotone h
  have hupper : L + 1 ≤ M → magnitudeUnits (L + 1) ≤ magnitudeUnits M :=
    fun h => magnitudeUnits_strictMono.monotone h
  have hinj : magnitudeUnits M = magnitudeUnits (integerMagnitude m) → M = integerMagnitude m :=
    fun h => magnitudeUnits_strictMono.injective h
  unfold integerUnitsApart
  obtain ⟨hr, hle, htie⟩ | ⟨hr, hle, htie⟩ := hcases <;> rw [hr] at hinj htie ⊢ <;> omega

theorem natAbs_sub_valueUnits_of_sign_eq {n : Int} {p : F32} (h : p.getLsbD 31 = decide (n < 0)) :
    (n * 2 ^ 149 - valueUnits p).natAbs = integerUnitsApart n.natAbs (p.toNat % 2 ^ 31) := by
  unfold integerUnitsApart
  by_cases hn : n < 0
  · rw [valueUnits_of_negative (by simpa [hn] using h)]
    omega
  · rw [valueUnits_of_positive (by simpa [hn] using h)]
    omega

theorem natAbs_sub_valueUnits_of_sign_ne {n : Int} {p : F32} (h : p.getLsbD 31 ≠ decide (n < 0)) :
    (n * 2 ^ 149 - valueUnits p).natAbs =
      n.natAbs * 2 ^ 149 + magnitudeUnits (p.toNat % 2 ^ 31) := by
  by_cases hn : n < 0
  · rw [valueUnits_of_positive (by simpa [hn] using h)]
    omega
  · rw [valueUnits_of_negative (by simpa [hn] using h)]
    omega

theorem getLsbD_zero_f32OfInt_eq_false_iff {n : Int} (hlt : n.natAbs < 2 ^ 64) :
    (f32OfInt n).getLsbD 0 = false ↔ integerMagnitude n.natAbs % 2 = 0 := by
  rw [getLsbD_eq_decide, decide_eq_false_iff_not, ← f32OfInt_magnitude hlt]
  omega

/-- In units: no f32 pattern is nearer to an integer than its image, and where another is as near, the
image is even. A pattern of the other sign is no nearer than zero is. -/
theorem f32OfInt_nearest_units {n : Int} (hlt : n.natAbs < 2 ^ 64) (p : F32) :
    (n * 2 ^ 149 - valueUnits (f32OfInt n)).natAbs ≤ (n * 2 ^ 149 - valueUnits p).natAbs ∧
      (p ≠ f32OfInt n →
        (n * 2 ^ 149 - valueUnits (f32OfInt n)).natAbs = (n * 2 ^ 149 - valueUnits p).natAbs →
        (f32OfInt n).getLsbD 0 = false) := by
  rw [getLsbD_zero_f32OfInt_eq_false_iff hlt,
    natAbs_sub_valueUnits_of_sign_eq (f32OfInt_sign hlt), f32OfInt_magnitude hlt]
  by_cases hp : p.getLsbD 31 = decide (n < 0)
  · obtain ⟨hle, heven⟩ := integerMagnitude_nearest n.natAbs (p.toNat % 2 ^ 31)
    rw [natAbs_sub_valueUnits_of_sign_eq hp]
    refine ⟨hle, fun hne => heven fun hmag => hne ?_⟩
    exact eq_of_sign_of_magnitude32 (hp.trans (f32OfInt_sign hlt).symm)
      (hmag.trans (f32OfInt_magnitude hlt).symm)
  · obtain ⟨hle, heven⟩ := integerMagnitude_nearest n.natAbs 0
    have hzero : integerUnitsApart n.natAbs 0 = n.natAbs * 2 ^ 149 := by
      simp only [integerUnitsApart, magnitudeUnits_of_denormal (show 0 < 2 ^ 23 by decide)]
      omega
    rw [natAbs_sub_valueUnits_of_sign_ne hp]
    omega

theorem real?_val32_f32OfInt {n : Int} (hlt : n.natAbs < 2 ^ 64) :
    (val32 (f32OfInt n)).real? = some ((valueUnits (f32OfInt n) : ℚ) * 2 ^ (-149 : ℤ)) := by
  apply real?_val32_of_finite
  have hmax := integerMagnitude_le hlt
  rw [← f32OfInt_magnitude hlt] at hmax
  rw [ne_eq, ← BitVec.toNat_inj, toNat_exponent32, BitVec.toNat_ofNat]
  omega

theorem intCast_eq_units (n : Int) : (n : ℚ) = ((n * 2 ^ 149 : Int) : ℚ) * 2 ^ (-149 : ℤ) := by
  rw [Int.cast_mul, Int.cast_pow, Int.cast_ofNat, mul_assoc, zpow_neg, zpow_ofNat,
    mul_inv_cancel₀ (by positivity), mul_one]

/-! ### Integers with an exact f32 -/

theorem real?_val32_f32OfInt_of_units {n : Int} (hlt : n.natAbs < 2 ^ 64)
    (h : valueUnits (f32OfInt n) = n * 2 ^ 149) : (val32 (f32OfInt n)).real? = some (n : ℚ) := by
  rw [real?_val32_f32OfInt hlt, h, ← intCast_eq_units]

theorem significantBitsAtMost_of_le_two_pow {k m : Nat} (hk : 1 ≤ k) (h : m ≤ 2 ^ k) :
    SignificantBitsAtMost k m := by
  obtain hlt | rfl := Nat.lt_or_eq_of_le h
  · exact ⟨m, 0, hlt, (Nat.mul_one m).symm⟩
  · exact ⟨1, k, Nat.one_lt_two_pow (by omega), (Nat.one_mul _).symm⟩

theorem significantBitsAtMost_mono {k l m : Nat} (hkl : k ≤ l) (h : SignificantBitsAtMost k m) :
    SignificantBitsAtMost l m := by
  obtain ⟨c, j, hc, hm⟩ := h
  exact ⟨c, j, hc.trans_le (Nat.pow_le_pow_right (by decide) hkl), hm⟩

/-- With at most 24 significant bits the rounding shift drops only zeros. -/
theorem significand_mul_of_exact {m : Nat} (h : 1 ≤ m) (hm : SignificantBitsAtMost 24 m) :
    significand 23 m * 2 ^ floorLog2 m = m * 2 ^ 23 := by
  have hdvd : 2 ^ floorLog2 m ∣ m * 2 ^ 23 := by
    obtain ⟨c, j, hc, rfl⟩ := hm
    have hlt : c * 2 ^ j < 2 ^ (24 + j) := by
      rw [Nat.pow_add]
      exact Nat.mul_lt_mul_of_pos_right hc (Nat.two_pow_pos j)
    have he := floorLog2_lt h hlt
    rw [Nat.mul_assoc, ← Nat.pow_add]
    exact Dvd.dvd.mul_left (Nat.pow_dvd_pow 2 (by omega)) c
  rw [significand, roundShift_of_dvd hdvd, Nat.div_mul_cancel hdvd]

theorem magnitudeUnits_integerMagnitude_of_exact {m : Nat} (hm : SignificantBitsAtMost 24 m) :
    magnitudeUnits (integerMagnitude m) = m * 2 ^ 149 := by
  obtain rfl | hpos := Nat.eq_zero_or_pos m
  · rfl
  · obtain ⟨hlo, hhi⟩ := significand_bounds 23 hpos
    rw [integerMagnitude_of_pos hpos, magnitudeUnits_of_significand hlo hhi, Nat.pow_add,
      ← Nat.mul_assoc, significand_mul_of_exact hpos hm, Nat.mul_assoc, ← Nat.pow_add]

theorem real?_val32_f32OfInt_of_exact {n : Int} (hlt : n.natAbs < 2 ^ 64)
    (hn : SignificantBitsAtMost 24 n.natAbs) : (val32 (f32OfInt n)).real? = some (n : ℚ) := by
  have hdist : (n * 2 ^ 149 - valueUnits (f32OfInt n)).natAbs = 0 := by
    rw [natAbs_sub_valueUnits_of_sign_eq (f32OfInt_sign hlt), f32OfInt_magnitude hlt,
      integerUnitsApart, magnitudeUnits_integerMagnitude_of_exact hn]
    omega
  exact real?_val32_f32OfInt_of_units hlt (by omega)

/-- Settles O32: distances are compared in units of 2^-149, where the integer's image is nearest; up to
2^24 an integer has at most 24 significant bits. -/
theorem intToF32IsNearestTiesToEven : Obligations.IntToF32IsNearestTiesToEven := by
  intro a W sgn hW
  have hlt := natAbs_integerValue_lt a sgn hW
  have hexact : (integerValue a W sgn).natAbs ≤ 2 ^ 24 →
      (valueUnits (intToF32 a W sgn) : ℚ) * 2 ^ (-149 : ℤ) = integerValue a W sgn := fun h =>
    Option.some.inj ((real?_val32_f32OfInt hlt).symm.trans
      (real?_val32_f32OfInt_of_exact hlt (significantBitsAtMost_of_le_two_pow (by decide) h)))
  refine ⟨_, real?_val32_f32OfInt hlt, fun p u hu => ?_, hexact, fun hnarrow => hexact ?_⟩
  · obtain ⟨-, rfl⟩ := real?_val32_eq_some hu
    rw [intCast_eq_units, abs_sub_le_abs_sub_iff_units, abs_sub_eq_abs_sub_iff_units]
    exact f32OfInt_nearest_units hlt p
  · exact (natAbs_integerValue_lt_of_le a sgn hW (hnarrow.trans (by decide))).le

/-! ### Exactness of the path (R156) -/

theorem valueUnits_of_real?_val32 {x : F32} {n : Int} (h : (val32 x).real? = some (n : ℚ)) :
    valueUnits x = n * 2 ^ 149 := by
  obtain ⟨-, hn⟩ := real?_val32_eq_some h
  rw [intCast_eq_units, mul_left_inj' units_pos.ne', Int.cast_inj] at hn
  exact hn.symm

/-- An integer that is the value of some f32 pattern is the value of its image. -/
theorem real?_val32_f32OfInt_of_exists {n : Int} {p : F32} (hlt : n.natAbs < 2 ^ 64)
    (hp : (val32 p).real? = some (n : ℚ)) : (val32 (f32OfInt n)).real? = some (n : ℚ) := by
  obtain ⟨hle, -⟩ := f32OfInt_nearest_units hlt p
  rw [valueUnits_of_real?_val32 hp] at hle
  exact real?_val32_f32OfInt_of_units hlt (by omega)

theorem real?_val16_narrow_f32OfInt_iff {n : Int} (hlt : n.natAbs < 2 ^ 64) :
    (val16 (narrow (f32OfInt n))).real? = some (n : ℚ) ↔ SignificantBitsAtMost 8 n.natAbs := by
  constructor
  · intro h
    have hwide := (real?_val16 _).symm.trans h
    exact (real?_narrow_eq_integer_iff (real?_val32_f32OfInt_of_exists hlt hwide)).mp h
  · intro h
    have hexact := significantBitsAtMost_mono (show 8 ≤ 24 by decide) h
    exact (real?_narrow_eq_integer_iff (real?_val32_f32OfInt_of_exact hlt hexact)).mpr h

/-- Settles O36: a result with the integer's value makes the f32 image exact too, and from there exactness
is Narrow's. -/
theorem integerConversionExactness : Obligations.IntegerConversionExactness := by
  have hiff : ∀ (a : OperandWord) (W : Nat) (sgn : Bool), W ∈ Config.intWidths →
      ((val16 (intToBf16 a W sgn)).real? = some (integerValue a W sgn : ℚ) ↔
        SignificantBitsAtMost 8 (integerValue a W sgn).natAbs) := fun a W sgn hW =>
    real?_val16_narrow_f32OfInt_iff (natAbs_integerValue_lt a sgn hW)
  exact ⟨hiff, fun a W sgn hW h => (hiff a W sgn hW).mpr (significantBitsAtMost_of_le h),
    by decide, by decide, by decide⟩

/-! ### The magnitude of the path's result -/

theorem isNormal32_f32OfInt {n : Int} (hn : n ≠ 0) (hlt : n.natAbs < 2 ^ 64) :
    isNormal32 (f32OfInt n) = true := by
  have hmin := le_integerMagnitude (show 1 ≤ n.natAbs by omega)
  have hmax := integerMagnitude_le hlt
  rw [isNormal32_iff_toNat, f32OfInt_magnitude hlt]
  omega

/-- The second rounding is a rounding shift of the 24-bit significand. -/
theorem narrow_f32OfInt_magnitude {n : Int} (hn : n ≠ 0) (hlt : n.natAbs < 2 ^ 64) :
    (narrow (f32OfInt n)).toNat % 2 ^ 15 =
      (floorLog2 n.natAbs + 126) * 2 ^ 7 + roundShift (significand 23 n.natAbs) 16 := by
  rw [narrow_magnitude_eq_rounded (isNormal32_f32OfInt hn hlt), f32OfInt_magnitude hlt,
    integerMagnitude_of_pos (by omega)]
  have hshift := roundShift_cases (significand 23 n.natAbs) 16
  have hround := roundedMagnitude_cases
    ((floorLog2 n.natAbs + 126) * 2 ^ 23 + significand 23 n.natAbs)
  omega

theorem narrow_f32OfInt_sign {n : Int} (hlt : n.natAbs < 2 ^ 64) :
    (narrow (f32OfInt n)).getLsbD 15 = decide (n < 0) := by
  rw [narrow_sign, f32OfInt_sign hlt]

/-! ### Zero and the range (R153, R154) -/

theorem f32OfInt_zero_or_exponent_range {n : Int} (hlt : n.natAbs < 2 ^ 64) :
    f32OfInt n = 0#32 ∨ (127#8 ≤ exponent32 (f32OfInt n) ∧ exponent32 (f32OfInt n) ≤ 191#8) := by
  obtain rfl | hn := eq_or_ne n 0
  · exact .inl rfl
  · right
    have hmin := le_integerMagnitude (show 1 ≤ n.natAbs by omega)
    have hmax := integerMagnitude_le hlt
    rw [← f32OfInt_magnitude hlt] at hmin hmax
    rw [BitVec.le_def, BitVec.le_def, toNat_exponent32, BitVec.toNat_ofNat, BitVec.toNat_ofNat]
    omega

theorem narrow_f32OfInt_zero_or_exponent_range {n : Int} (hlt : n.natAbs < 2 ^ 64) :
    narrow (f32OfInt n) = 0#16 ∨
      (127#8 ≤ exponent16 (narrow (f32OfInt n)) ∧ exponent16 (narrow (f32OfInt n)) ≤ 191#8) := by
  obtain rfl | hn := eq_or_ne n 0
  · exact .inl rfl
  · right
    have hmin := le_integerMagnitude (show 1 ≤ n.natAbs by omega)
    have hmax := integerMagnitude_le hlt
    have hmag := narrow_magnitude (isNormal32_f32OfInt hn hlt)
    rw [f32OfInt_magnitude hlt] at hmag
    rw [BitVec.le_def, BitVec.le_def, toNat_exponent16, BitVec.toNat_ofNat, BitVec.toNat_ofNat]
    omega

/-- Settles O34: the significand's bounds bound the magnitudes, and the sign is the integer's. -/
theorem integerPathRange : Obligations.IntegerPathRange := by
  refine ⟨fun a W sgn hW => ?_, by decide, ?largestValue⟩
  · have hlt := natAbs_integerValue_lt a sgn hW
    rw [intToBf16, intToF32]
    refine ⟨f32OfInt_zero_or_exponent_range hlt, ?magnitude,
      narrow_f32OfInt_zero_or_exponent_range hlt, ?sign16, ?sign32⟩
    case magnitude =>
      rw [BitVec.le_def, BitVec.extractLsb'_toNat, Nat.shiftRight_zero, f32OfInt_magnitude hlt]
      exact integerMagnitude_le hlt
    case sign16 => rw [narrow_f32OfInt_sign hlt, decide_eq_true_eq]
    case sign32 => rw [f32OfInt_sign hlt, decide_eq_true_eq]
  case largestValue =>
    exact real?_fieldsValue_mantissa_zero (e := 191) (x := 64) 23 (by decide) (by decide) rfl

theorem integerValue_of_operandInt_zero {a : OperandWord} {W : Nat} (sgn : Bool)
    (h : operandInt a W = 0#W) : integerValue a W sgn = 0 := by
  cases sgn <;> simp [integerValue, h]

/-- Settles O33: the integer 0 has the pattern 0, and the range of the path leaves out -0. -/
theorem integerZeroGivesPositiveZero : Obligations.IntegerZeroGivesPositiveZero := by
  intro a W sgn hW
  refine ⟨fun hzero => ?_, fun hneg => ?_⟩
  · rw [intToBf16, intToF32, integerValue_of_operandInt_zero sgn hzero]
    exact ⟨rfl, rfl⟩
  · have hrange := narrow_f32OfInt_zero_or_exponent_range (natAbs_integerValue_lt a sgn hW)
    rw [intToBf16, intToF32] at hneg
    rw [hneg] at hrange
    exact absurd hrange (by decide)

/-! ### Double rounding (R155) -/

theorem toNat_positive_fields16 (e f : Nat) :
    (0#1 ++ BitVec.ofNat 8 e ++ BitVec.ofNat 7 f : BF16).toNat =
      e % 2 ^ 8 * 2 ^ 7 + f % 2 ^ 7 := by
  rw [toNat_append_eq_mul_add, toNat_append_eq_mul_add, BitVec.toNat_ofNat, BitVec.toNat_ofNat,
    BitVec.toNat_ofNat, Nat.zero_mod, Nat.zero_mul, Nat.zero_add]

theorem singleRoundedBF16_eq {m : Nat} (h : 1 ≤ m) :
    singleRoundedBF16 m =
      if significand 7 m = 2 ^ 8 then 0#1 ++ BitVec.ofNat 8 (floorLog2 m + 1 + 127) ++ 0#7
      else 0#1 ++ BitVec.ofNat 8 (floorLog2 m + 127) ++ BitVec.ofNat 7 (significand 7 m) := by
  unfold singleRoundedBF16
  by_cases he : floorLog2 m ≤ 7
  · rw [if_pos he, if_neg (significand_lt_of_le h he).ne, significand_of_le he]
  · rw [if_neg he, significand_of_ge (by omega)]

theorem toNat_singleRoundedBF16 {m : Nat} (h : 1 ≤ m) (hlt : m < 2 ^ 64) :
    (singleRoundedBF16 m).toNat = (floorLog2 m + 126) * 2 ^ 7 + significand 7 m := by
  obtain ⟨hlo, hhi⟩ := significand_bounds 7 h
  have he := floorLog2_lt h hlt
  rw [singleRoundedBF16_eq h]
  split
  · rw [toNat_positive_fields16]
    omega
  · rw [toNat_positive_fields16]
    omega

theorem singleRoundedBF16_sign {m : Nat} (h : 1 ≤ m) (hlt : m < 2 ^ 64) :
    (singleRoundedBF16 m).getLsbD 15 = false := by
  obtain ⟨-, hhi⟩ := significand_bounds 7 h
  have he := floorLog2_lt h hlt
  rw [getLsbD_eq_decide, decide_eq_false_iff_not, toNat_singleRoundedBF16 h hlt]
  omega

/-- An exact first rounding leaves one rounding. -/
theorem roundShift_significand_of_exact {m : Nat} (h : 1 ≤ m) (hm : SignificantBitsAtMost 24 m) :
    roundShift (significand 23 m) 16 = significand 7 m := by
  rw [← roundShift_mul_two_pow (significand 23 m) 16 (floorLog2 m), significand_mul_of_exact h hm,
    significand, ← roundShift_mul_two_pow (m * 2 ^ 7) (floorLog2 m) 16, Nat.mul_assoc, ← Nat.pow_add,
    Nat.add_comm 16]

/-- Just above 2^24 both ways end at the quotient 128: the first rounding may reach the tie of the second,
which is even. -/
theorem roundShift_significand_of_lt {m : Nat} (hlo : 2 ^ 24 ≤ m) (hhi : m < 16842753) :
    roundShift (significand 23 m) 16 = significand 7 m := by
  have he : floorLog2 m = 24 :=
    Nat.le_antisymm (Nat.le_of_lt_succ (floorLog2_lt (k := 25) (by omega) (by omega)))
      ((Nat.le_log2 (by omega)).mpr hlo)
  have hpath : significand 23 m = roundShift m 1 := by rw [significand_of_ge (by omega), he]
  have honce : significand 7 m = roundShift m 17 := by rw [significand_of_ge (by omega), he]
  rw [hpath, honce]
  have hfirst := roundShift_cases m 1
  have hsecond := roundShift_cases (roundShift m 1) 16
  have hsingle := roundShift_cases m 17
  omega

theorem roundShift_significand {m : Nat} (h : 1 ≤ m) (hlt : m < 16842753) :
    roundShift (significand 23 m) 16 = significand 7 m := by
  obtain hle | hgt := Nat.le_total m (2 ^ 24)
  · exact roundShift_significand_of_exact h (significantBitsAtMost_of_le_two_pow (by decide) hle)
  · exact roundShift_significand_of_lt hgt hlt

/-- Below 16842753 the path's magnitude is that of a single rounding. -/
theorem narrow_f32OfInt_magnitude_eq_singleRounded {n : Int} (hn : n ≠ 0)
    (hlt : n.natAbs < 16842753) :
    (narrow (f32OfInt n)).toNat % 2 ^ 15 = (singleRoundedBF16 n.natAbs).toNat % 2 ^ 15 := by
  have hpos : 1 ≤ n.natAbs := by omega
  have he := floorLog2_lt (k := 25) hpos (by omega)
  obtain ⟨-, hhi⟩ := significand_bounds 7 hpos
  rw [narrow_f32OfInt_magnitude hn (by omega), toNat_singleRoundedBF16 hpos (by omega),
    roundShift_significand hpos hlt]
  omega

/-- Settles O35: below 16842753 both ways round to one significand; from there on, as at u32 0x80800001,
the first rounding can reach the tie of the second and so lose the integer's last bit. -/
theorem doubleRoundingIsNormative : Obligations.DoubleRoundingIsNormative := by
  refine ⟨fun m hpos hlt => ?below, by decide, by decide, by decide, by decide, by decide, by decide,
    fun a W sgn hW hn => ?narrowWidths⟩
  case below =>
    have hmag := narrow_f32OfInt_magnitude_eq_singleRounded (n := m) (by omega) hlt
    rw [Int.natAbs_natCast] at hmag
    refine eq_of_sign_of_magnitude ?_ hmag
    rw [narrow_f32OfInt_sign (by omega), singleRoundedBF16_sign hpos (by omega),
      decide_eq_false_iff_not]
    omega
  case narrowWidths =>
    have hadmitted : W ∈ Config.intWidths := by
      obtain rfl | rfl := hW <;> decide
    have hlt := natAbs_integerValue_lt_of_le a (k := 16) sgn hadmitted (by omega)
    apply BitVec.eq_of_toNat_eq
    rw [BitVec.extractLsb'_toNat, BitVec.extractLsb'_toNat, Nat.shiftRight_zero, Nat.shiftRight_zero]
    exact narrow_f32OfInt_magnitude_eq_singleRounded hn (by omega)

end Sys2Proof.Machine
end

section
/-! PROOFS. The obligations of 60_exceptions.md: every operation completes (R200), what a reserved op
value drives and records (R201), that `illegal` has no other cause (R202), and the host's stop on a name
without a result value (R201, R77). -/

namespace Sys2Proof.Machine

/-! ### Completion and the indication of a reserved op value -/

/-- The reserved op values are one range (30_encoding.md R75). -/
theorem isReservedOp_iff_range (op : OpCode) :
    isReservedOp op = true ↔ 0x2#4 ≤ op ∧ op ≤ 0x7#4 :=
  decide_eq_true_iff

theorem illegalFlag_eq_one_iff (op : OpCode) : illegalFlag op = 1#1 ↔ isReservedOp op = true := by
  cases h : isReservedOp op <;> simp [illegalFlag, h]

theorem observe_of_reserved {op : OpCode} (h : isReservedOp op = true) (a : OperandWord) :
    observe op a = .fault (.reservedOp op) :=
  if_pos h

theorem observe_of_not_reserved {op : OpCode} (h : isReservedOp op = false) (a : OperandWord) :
    observe op a = .result (outputs op a).y := by
  rw [observe, h, if_neg Bool.false_ne_true]

/-- Completing a reserved op value raises its indication, and the operand does not enter. -/
theorem State.complete_of_reserved {op : OpCode} (h : isReservedOp op = true) (a : OperandWord)
    (s : State) : s.complete op a = s.raiseIllegal op := by
  rw [State.complete, State.raiseIllegal, outputs_reserved h, observe_of_reserved h]

theorem exec_of_reserved {i : Instr} (h : isReservedOp i.op = true) (s : State) :
    exec i s = .next (s.raiseIllegal i.op) := by
  rw [exec_eq_complete, State.complete_of_reserved h]

/-- Settles O42: an operation completes by driving the datapath's `y` as its result. -/
theorem everyOperationCompletes : Obligations.EveryOperationCompletes := by
  intro i s h
  refine ⟨s.driveResult (outputs i.op i.operand).y, ?_, rfl, rfl⟩
  rw [exec_eq_complete, State.complete_of_not_reserved h]

/-- Settles O43: every instruction of a reserved op value raises its indication, and no transaction
enters the next one's outputs. -/
theorem reservedOpRaisesIllegal : Obligations.ReservedOpRaisesIllegal := by
  intro i s hlo hhi
  have hres : isReservedOp i.op = true := (isReservedOp_iff_range i.op).mpr ⟨hlo, hhi⟩
  have hexec := exec_of_reserved hres s
  refine ⟨s.raiseIllegal i.op, hexec, rfl, rfl, rfl, rfl, rfl, rfl, rfl, fun i' hop => ?_,
    fun j u v => earlierTransactionLeavesNoTrace i j s _ u v hexec⟩
  rw [← hop] at hres ⊢
  exact exec_of_reserved hres s

/-- Settles O44: `illegal` is the flag of the word's op field, set on the reserved range. -/
theorem illegalExactlyForReservedOps : Obligations.IllegalExactlyForReservedOps := by
  intro T s t h
  rw [eq_complete_of_exec h, State.complete_illegal, outputs_illegal, decode_op,
    illegalFlag_eq_one_iff, isReservedOp_iff_range]

/-! ### A run without recorded faults -/

theorem exists_result_observe_iff (op : OpCode) (a : OperandWord) :
    (∃ y, observe op a = .result y) ↔ isReservedOp op = false := by
  cases h : isReservedOp op with
  | true => simp [observe_of_reserved h]
  | false => simp [observe_of_not_reserved h]

/-- A run of lines with literal operands presents each of them and observes them in order. -/
theorem exists_run_of_literals (ts : List (OpCode × OperandWord)) {s : State}
    (hprog : s.program = ts.map (fun x => ⟨x.1, .lit x.2⟩)) :
    ∃ t : State, run ts.length s = .next t ∧ t.program = [] ∧
      t.log = s.log ++ ts.map (fun x => observe x.1 x.2) := by
  induction ts generalizing s with
  | nil => exact ⟨s, rfl, hprog, by simp⟩
  | cons x ts ih =>
    obtain ⟨u, hstep, huprog, hulog, -, -⟩ :=
      exists_step_of_line hprog (lineOperand_lit s.log x.1 x.2)
    obtain ⟨t, hrun, htprog, htlog⟩ := ih huprog
    exact ⟨t, (run_of_next hstep).trans hrun, htprog, by simp [htlog, hulog]⟩

/-- Settles O52: the run adds one observation per transaction, and that of a reserved op value is the
only one without a result value. -/
theorem faultFreeRunHasNoReservedOp : Obligations.FaultFreeRunHasNoReservedOp := by
  intro ts s t hfree hprog hrun
  obtain ⟨t', hrun', -, hlog⟩ := exists_run_of_literals ts hprog
  obtain rfl : t' = t := by
    rw [hrun'] at hrun
    exact Host.Outcome.next.inj hrun
  calc t'.FaultFree
      ↔ s.FaultFree ∧ ∀ x ∈ ts, ∃ y, observe x.1 x.2 = .result y := by
        simp only [State.FaultFree, hlog, List.forall_mem_append, List.forall_mem_map]
    _ ↔ ∀ x ∈ ts, isReservedOp x.1 = false := by
        simp only [hfree, true_and, exists_result_observe_iff]

/-! ### A line without an operand value -/

/-- With a line waiting whose operand has no value, a step stops by the operand's fault. -/
theorem step_of_line_error {s : State} {l : Line} {rest : List Line} {f : Fault}
    (hprog : s.program = l :: rest) (hf : lineOperand s.log l = .error f) : step s = .fault f := by
  simp [step, presentNext, hprog, hf]

theorem lineOperand_held_of_fault {log : List Observation} {k : Nat} {f : Fault} (op : OpCode)
    (h : log[k]? = some (.fault f)) :
    lineOperand log ⟨op, .held (k + 1)⟩ = .error (.useOfFaultedResult (k + 1)) := by
  simp [lineOperand, heldObservation, h]

/-- The host holds nothing under a number that is not from 1 to the number of observations. -/
theorem heldObservation_eq_none {log : List Observation} {K : Nat}
    (h : K = 0 ∨ log.length < K) : heldObservation log K = none := by
  cases K with
  | zero => rfl
  | succ k => exact List.getElem?_eq_none (by omega)

theorem lineOperand_held_of_none {log : List Observation} {K : Nat} (op : OpCode)
    (h : heldObservation log K = none) :
    lineOperand log ⟨op, .held K⟩ = .error (.noSuchResult K) := by
  simp [lineOperand, h]

/-- Settles O8: a faulted name and a missing one each leave the line without an operand value. -/
theorem stepStopsWithoutResultValue : Obligations.StepStopsWithoutResultValue :=
  ⟨fun _ op _ _ _ hprog hlog => step_of_line_error hprog (lineOperand_held_of_fault op hlog),
    fun _ op _ _ hprog hK =>
      step_of_line_error hprog (lineOperand_held_of_none op (heldObservation_eq_none hK))⟩

end Sys2Proof.Machine
end

section
/-! PROOFS. The obligations of 70_reset_and_hazards.md: the state at reset (R240) and the observation of
a run (R247). -/

namespace Sys2Proof.Machine

/-! ### Reset (R240) -/

/-- The ports at reset are those of narrowing +0. -/
theorem settled_reset : State.reset.Settled := by
  unfold State.Settled
  decide

/-- Settles O48: reset's ports are settled, and both lists of the host are empty. -/
theorem resetOutputsAreFunctions : Obligations.ResetOutputsAreFunctions :=
  ⟨settled_reset, rfl, rfl⟩

/-- Settles O49: reset's ports are settled, and its log holds no observation. -/
theorem resetSatisfiesInvariant : Obligations.ResetSatisfiesInvariant where
  settled := fun _ => settled_reset
  observed := List.forall_mem_nil _

/-! ### The observation of a run (R247) -/

/-- The pairs of a list of transactions are the datapath's outputs, one transaction at a time. -/
theorem map_pair_observe (ts : List (OpCode × OperandWord)) :
    (ts.map (fun x => observe x.1 x.2)).map Observation.pair =
      ts.map (fun x => ((outputs x.1 x.2).illegal, (outputs x.1 x.2).y)) := by
  rw [List.map_map]
  exact List.map_congr_left fun x _ => observe_pair x.1 x.2

/-- Settles O51: the run appends one observation per transaction, so that what follows the log it began
with is their list, and the pair of each is the datapath's outputs. -/
theorem runObservesEachTransaction : Obligations.RunObservesEachTransaction := by
  intro ts s hprog
  obtain ⟨t, hrun, htprog, hlog⟩ := exists_run_of_literals ts hprog
  refine ⟨t, hrun, htprog, hlog, ?_⟩
  rw [hlog, List.drop_left]
  exact map_pair_observe ts

end Sys2Proof.Machine
end

section
/-! PROOFS. The obligation of 92_eei_decisions.md: undefined inputs are refused (D22; I8 of
93_implementation_defined.md). -/

namespace Sys2Proof.Machine

/-- With no line waiting, the host refuses to present inputs that are not fully defined. -/
theorem presentNext_of_undefined_inputs {s : State} (hprog : s.program = [])
    (hundef : s.inputsDefined = false) : presentNext s = .refused .undefinedInputs := by
  simp [presentNext, hprog, hundef]

/-- A step whose presentation is refused is refused for the same reason, and runs no transaction. -/
theorem step_of_presentNext_refused {s : State} {r : Refusal} (h : presentNext s = .refused r) :
    step s = .refused r := by
  rw [step, h]

/-- Settles O9: the presentation of the undefined inputs is refused, and the step with it. -/
theorem stepRefusesUndefinedInputs : Obligations.StepRefusesUndefinedInputs :=
  fun _ hprog hundef =>
    step_of_presentNext_refused (presentNext_of_undefined_inputs hprog hundef)

end Sys2Proof.Machine
end
